-- ==== Sys2Proof/Word.lean ====
section
/-! DEFINITION. The machine's word types: what the spec treats as bits (R10). Nothing here is signed. -/

namespace Sys2Proof

/-- A byte: 8 bits, unsigned, bit 7 the most significant (R10). -/
abbrev Byte := BitVec 8

/-- The host's address operand `cmd_addr`, ADDR_W = 32 bits (R6, R35). -/
abbrev HostAddr := BitVec 32

/-- The 24-bit frame address, the output of the address-frame encoder (R24, R110). -/
abbrev FrameAddr := BitVec 24

/-- A command code `cmd_op`, 4 bits (R100). -/
abbrev OpCode := BitVec 4

end Sys2Proof
end

