-- ==== Sys2Proof/Config.lean ====
section
/-! DEFINITION. What an implementation fixes (R6, R7) and the values the spec leaves open, as constants without a
body: no proof can see what they are. -/

namespace Sys2Proof.Config

/-- LEN_W, the width of `cmd_len`, L_LEN, IDX, `rsp_count` and `buf_idx`: the spec's default 32 (R7, decision D5).
DESIGN CHOICE (log entry 1): the spec leaves LEN_W ≥ 9 open; every other definition takes it from here. -/
abbrev lenW : Nat := 32

/-- CHIP_ADDR_BITS: the address bits the chip decodes (R6). -/
abbrev chipAddrBits : Nat := 18

/-- PAGE_SIZE: bytes per page of the main array (R6). -/
abbrev pageSize : Nat := 256

/-- PAGE_COUNT: pages of the main array (R6). -/
abbrev pageCount : Nat := 1024

/-- CAPACITY: bytes in the main array, 0x40000 (R6, conflict C1). -/
abbrev capacity : Nat := pageSize * pageCount

/-- ID_PAGE_SIZE, the spec's default 256 (R7, R62, decision D12; DESIGN CHOICE, log entry 17). -/
abbrev idPageSize : Nat := 256

/-- DUMMY: the byte sent on every read exchange (R6, R115). -/
abbrev dummy : Byte := 0x00

/-- LOCK_ADDR: the fixed frame address of the lock sub-protocol, bit A10 = 1 (R6, R113). -/
abbrev lockAddr : FrameAddr := 0x000400

/-- LOCK_DATA: the data byte of LOCK_ID (R6, R115). -/
abbrev lockData : Byte := 0x02

/-- The width of the optional packed command word: 44 + LEN_W, 76 with LEN_W = 32 (R102). -/
abbrev commandW : Nat := 44 + lenW

/-- What an address nothing has listed reads as, in BUF, in MAIN and in the ID page alike.
DESIGN CHOICE (log entry 2): the spec gives no initial contents; 0xFF is the one its own vectors use for the two
chip arrays (decision D29). -/
def unlisted : Byte := 0xFF

/-- The byte the reference responder answers where R83 says "unspecified" (a free draw), by draw number.
Free value, log entry 3. -/
opaque unspecifiedByte : Nat → Byte

/-- Whether the chip received the byte of an exchange the transport answered with `fail` = 1, by draw number: the
spec leaves it outside the block (R247). Free value, log entry 4. -/
opaque failedByteReceived : Nat → Bool

/-- Whether a frame cut by reset takes effect in the chip, by draw number: the spec allows both (R271, U7).
Free value, log entry 5. -/
opaque cutFrameTakesEffect : Nat → Bool

/-- Whether the chip accepts a write frame while SRWD, BP1 or BP0 is set, from its status register and the frame:
the responder is not defined there (R86, R92, U9). Free value, log entry 6. -/
opaque protectedAccepts : Byte → List Byte → Bool

end Sys2Proof.Config

namespace Sys2Proof

/-- A length, a transfer index or a buffer index: LEN_W bits (R22, R25, R37). -/
abbrev Len := BitVec Config.lenW

/-- The two parameters the spec leaves to the platform as one bit each (R7). They never change while the block
runs (DESIGN CHOICE, log entry 10: both values are modelled, and reset has the spec's defaults). -/
structure Params where
  /-- CHECK_EN: the dispatcher makes the range and page checks (R7, decision D7). -/
  checkEn  : Bool
  /-- T_CAN_FAIL: the transport port has the `t_fail` bit (R7, decision D10). -/
  tCanFail : Bool
deriving DecidableEq, Repr

/-- The spec's defaults, CHECK_EN = 1 and T_CAN_FAIL = 1 (R7). -/
def Params.default : Params := { checkEn := true, tCanFail := true }

end Sys2Proof
end

