-- ==== Sys2Proof/Syntax.lean ====
section
/-! DEFINITION. The instructions: one constructor per row of spec/opcode_table.json. The first fourteen are the host
commands (R100); the ten whose name begins with `wire` are the wire frames (R104, R105), the instructions of the chip
behind the transport. -/

namespace Sys2Proof

/-- The payload of a command: the fields of the command port beside `cmd_op` (R35). A command that does not use a
field ignores it (R101), but `cmd_data` is latched into L_DATA by every accepted command (R26, U16). -/
structure Payload where
  addr : HostAddr
  len  : Len
  data : Byte
deriving DecidableEq, Repr

/-- A command as the host offers it: the 4-tuple (`cmd_op`, `cmd_addr`, `cmd_len`, `cmd_data`) of R100. -/
structure Command where
  op      : OpCode
  payload : Payload
deriving DecidableEq, Repr

inductive Instr where
  /-- INIT, `cmd_op` 0x0 (R155). -/
  | init (p : Payload)
  /-- WRITE_BYTE, `cmd_op` 0x1 (R180). -/
  | writeByte (p : Payload)
  /-- WRITE_BUFFER, `cmd_op` 0x2 (R181). -/
  | writeBuffer (p : Payload)
  /-- READ_BYTE, `cmd_op` 0x3 (R182). -/
  | readByte (p : Payload)
  /-- READ_BUFFER, `cmd_op` 0x4 (R183). -/
  | readBuffer (p : Payload)
  /-- GET_STATUS, `cmd_op` 0x5 (R200). -/
  | getStatus (p : Payload)
  /-- GET_WIP, `cmd_op` 0x6 (R201). -/
  | getWip (p : Payload)
  /-- SET_WRITE_ENABLE, `cmd_op` 0x7 (R202). -/
  | setWriteEnable (p : Payload)
  /-- READ_ID_PAGE, `cmd_op` 0x8 (R220). -/
  | readIdPage (p : Payload)
  /-- WRITE_ID_PAGE, `cmd_op` 0x9 (R221). -/
  | writeIdPage (p : Payload)
  /-- READ_LOCK_STATUS, `cmd_op` 0xA (R222). -/
  | readLockStatus (p : Payload)
  /-- LOCK_ID, `cmd_op` 0xB (R223). -/
  | lockId (p : Payload)
  /-- WRITE_DISABLE, `cmd_op` 0xC (R203). -/
  | writeDisable (p : Payload)
  /-- WRITE_STATUS, `cmd_op` 0xD (R204). -/
  | writeStatus (p : Payload)
  /-- wire WREN 0x06, format W0 (R105). -/
  | wireWren
  /-- wire WRDI 0x04, format W0 (R105). -/
  | wireWrdi
  /-- wire RDSR 0x05, format W1R (R105). -/
  | wireRdsr
  /-- wire WRSR 0x01, format W1W with its data byte (R105). -/
  | wireWrsr (data : Byte)
  /-- wire READ 0x03, format W3R: the 24-bit frame address and the number of dummy bytes (R105). -/
  | wireRead (addr : FrameAddr) (n : Nat)
  /-- wire WRITE 0x02, format W3W: the 24-bit frame address and the data bytes (R105). -/
  | wireWrite (addr : FrameAddr) (data : List Byte)
  /-- wire READ_ID 0x83, format W3R, high and middle address bytes 0 (R105). -/
  | wireReadId (lo : Byte) (n : Nat)
  /-- wire WRITE_ID 0x82, format W3W, high and middle address bytes 0 (R105). -/
  | wireWriteId (lo : Byte) (data : List Byte)
  /-- wire READ_LOCK_STATUS 0x83 with address 0x000400, one dummy byte (R105). -/
  | wireReadLockStatus
  /-- wire LOCK_ID 0x82 with address 0x000400 and its one data byte; the block sends 0x02 (R105, R115), another
  master of the bus may send any byte of the pattern `xxxxxx1x` (R89). -/
  | wireLockId (data : Byte)
deriving DecidableEq, Repr

end Sys2Proof
end

