-- ==== Sys2Proof/WellFormed.lean ====
section
/-! DEFINITION. When a term of Instr is an instruction the hardware has. The widths of the operands are in their types;
the one check left is the length of a wire frame's data phase. -/

namespace Sys2Proof

/-- A data phase has at most 2^LEN_W - 1 bytes: its length is L_LEN (R25, R104). -/
def Instr.lengthFits (n : Nat) : Bool := n < 2 ^ Config.lenW

/-- Every command 4-tuple is well formed (R100); a wire stream's length must be one L_LEN can hold (R104). -/
def Instr.wellFormed : Instr → Bool
  | .init _ => true
  | .writeByte _ => true
  | .writeBuffer _ => true
  | .readByte _ => true
  | .readBuffer _ => true
  | .getStatus _ => true
  | .getWip _ => true
  | .setWriteEnable _ => true
  | .readIdPage _ => true
  | .writeIdPage _ => true
  | .readLockStatus _ => true
  | .lockId _ => true
  | .writeDisable _ => true
  | .writeStatus _ => true
  | .wireWren => true
  | .wireWrdi => true
  | .wireRdsr => true
  | .wireWrsr _ => true
  | .wireRead _ n => lengthFits n
  | .wireWrite _ data => lengthFits data.length
  | .wireReadId _ n => lengthFits n
  | .wireWriteId _ data => lengthFits data.length
  | .wireReadLockStatus => true
  | .wireLockId _ => true

end Sys2Proof
end

