-- ==== Sys2Proof/Decode.lean ====
section
/-! DEFINITION. The two encodings of file 30 and their decoders: the command word (R100 to R102), which the dispatcher
reads, and the wire frame (R104, R105), which the chip reads. Both decoders are total and reject by name. After them
stands the encoder, written from the same tables. -/

namespace Sys2Proof

/-! ### Bit fields -/

/-- FADDR[23:16], the address high byte (R24, R114). -/
def addrHi (a : FrameAddr) : Byte := a.extractLsb' 16 8

/-- FADDR[15:8], the address middle byte (R24, R114). -/
def addrMid (a : FrameAddr) : Byte := a.extractLsb' 8 8

/-- FADDR[7:0], the address low byte (R24, R114). -/
def addrLo (a : FrameAddr) : Byte := a.extractLsb' 0 8

/-- The three address bytes in the order they travel, most significant first (R65, R114). -/
def addrBytes (a : FrameAddr) : List Byte := [addrHi a, addrMid a, addrLo a]

/-- FADDR = 65536·hi + 256·mid + lo (R114). -/
def addrOfBytes (hi mid lo : Byte) : FrameAddr := hi ++ mid ++ lo

/-! ### The command word -/

/-- The packed command word: bits 3:0 `cmd_op`, 11:4 `cmd_data`, 43:12 `cmd_addr`, 43+LEN_W:44 `cmd_len` (R102). -/
def Command.toWord (c : Command) : BitVec Config.commandW :=
  c.payload.len ++ c.payload.addr ++ c.payload.data ++ c.op

/-- The 4-tuple a packed command word stands for (R102). -/
def Command.ofWord (w : BitVec Config.commandW) : Command where
  op := w.extractLsb' 0 4
  payload :=
    { addr := w.extractLsb' 12 32
      len  := w.extractLsb' 44 Config.lenW
      data := w.extractLsb' 4 8 }

/-- Why a command or a frame is no row of the opcode table. -/
inductive DecodeError where
  /-- `cmd_op` 0xE or 0xF selects no command (R120). -/
  | reservedCommand (op : OpCode)
  /-- A frame has at least its opcode byte (R104). -/
  | emptyFrame
  /-- The first byte is none of the eight wire opcodes (R105, R121). -/
  | unknownOpcode (b : Byte)
  /-- The frame is shorter or longer than its format (R104). -/
  | badLength
  /-- An ID or lock opcode with a frame address other than (0, 0, any) and 0x000400 (R121). -/
  | badAddress (a : FrameAddr)
  /-- A read frame that sends another byte than the dummy 0x00 (R104, R115). -/
  | badDummy
deriving DecidableEq, Repr

/-- The command a 4-tuple selects: `cmd_op` alone decides (R100); 0xE and 0xF select none (R120). -/
def decodeCommand (c : Command) : Except DecodeError Instr :=
  match c.op.toNat with
  | 0x0 => .ok (.init c.payload)
  | 0x1 => .ok (.writeByte c.payload)
  | 0x2 => .ok (.writeBuffer c.payload)
  | 0x3 => .ok (.readByte c.payload)
  | 0x4 => .ok (.readBuffer c.payload)
  | 0x5 => .ok (.getStatus c.payload)
  | 0x6 => .ok (.getWip c.payload)
  | 0x7 => .ok (.setWriteEnable c.payload)
  | 0x8 => .ok (.readIdPage c.payload)
  | 0x9 => .ok (.writeIdPage c.payload)
  | 0xA => .ok (.readLockStatus c.payload)
  | 0xB => .ok (.lockId c.payload)
  | 0xC => .ok (.writeDisable c.payload)
  | 0xD => .ok (.writeStatus c.payload)
  | _ => .error (.reservedCommand c.op)

/-! ### The wire frame -/

/-- Whether the bytes after a read frame's header are all the dummy byte (R115). -/
def allDummy (ds : List Byte) : Bool := ds.all (· == Config.dummy)

/-- A read stream of `ds.length` dummy bytes (format W3R), given what it would be. -/
def readStream (ds : List Byte) (i : Nat → Instr) : Except DecodeError Instr :=
  if !Instr.lengthFits ds.length then .error .badLength
  else if allDummy ds then .ok (i ds.length)
  else .error .badDummy

/-- A write stream of the data bytes `ds` (format W3W), given what it would be. -/
def writeStream (ds : List Byte) (i : List Byte → Instr) : Except DecodeError Instr :=
  if Instr.lengthFits ds.length then .ok (i ds) else .error .badLength

/-- A frame with no data phase (format W0). -/
def noData (rest : List Byte) (i : Instr) : Except DecodeError Instr :=
  if rest.isEmpty then .ok i else .error .badLength

/-- The data phase of READ_LOCK_STATUS and RDSR: one dummy byte (formats W1R and W3R with n = 1). -/
def oneDummy (rest : List Byte) (i : Instr) : Except DecodeError Instr :=
  match rest with
  | [d] => if d = Config.dummy then .ok i else .error .badDummy
  | _ => .error .badLength

/-- The data phase of WRSR and LOCK_ID: one data byte (formats W1W and W3W with n = 1). -/
def oneData (rest : List Byte) (i : Byte → Instr) : Except DecodeError Instr :=
  match rest with
  | [d] => .ok (i d)
  | _ => .error .badLength

/-- The instruction a whole wire frame is, FrameBegin to FrameEnd (R104, R105). 0x83 and 0x82 serve two sub-protocols,
told apart by the address bytes (R63, R105). A frame that is no row still reaches the chip (DESIGN CHOICE, log entry
19). -/
def decodeFrame (bytes : List Byte) : Except DecodeError Instr :=
  match bytes with
  | [] => .error .emptyFrame
  | op :: rest =>
    match op.toNat with
    | 0x06 => noData rest .wireWren
    | 0x04 => noData rest .wireWrdi
    | 0x05 => oneDummy rest .wireRdsr
    | 0x01 => oneData rest .wireWrsr
    | 0x03 =>
      match rest with
      | hi :: mid :: lo :: ds => readStream ds (.wireRead (addrOfBytes hi mid lo))
      | _ => .error .badLength
    | 0x02 =>
      match rest with
      | hi :: mid :: lo :: ds => writeStream ds (.wireWrite (addrOfBytes hi mid lo))
      | _ => .error .badLength
    | 0x83 =>
      match rest with
      | hi :: mid :: lo :: ds =>
        if hi = 0x00 ∧ mid = 0x00 then readStream ds (.wireReadId lo)
        else if addrOfBytes hi mid lo = Config.lockAddr then oneDummy ds .wireReadLockStatus
        else .error (.badAddress (addrOfBytes hi mid lo))
      | _ => .error .badLength
    | 0x82 =>
      match rest with
      | hi :: mid :: lo :: ds =>
        if hi = 0x00 ∧ mid = 0x00 then writeStream ds (.wireWriteId lo)
        else if addrOfBytes hi mid lo = Config.lockAddr then oneData ds .wireLockId
        else .error (.badAddress (addrOfBytes hi mid lo))
      | _ => .error .badLength
    | _ => .error (.unknownOpcode op)

/-! ### Both -/

/-- An instruction as it stands at one of the two places one is taken from: a command word on the command port, or a
frame on the bus. -/
inductive Encoded where
  | command (word : BitVec Config.commandW)
  | frame (bytes : List Byte)
deriving DecidableEq, Repr

/-- The decoder: total on any command word and any frame. -/
def decode : Encoded → Except DecodeError Instr
  | .command w => decodeCommand (Command.ofWord w)
  | .frame bytes => decodeFrame bytes

/-- The packed word of a command with code `op` (R102). -/
def commandWord (op : OpCode) (p : Payload) : Encoded := .command (Command.toWord ⟨op, p⟩)

/-- The encoder, from the tables of R100, R102, R104 and R105. -/
def encode : Instr → Encoded
  | .init p => commandWord 0x0 p
  | .writeByte p => commandWord 0x1 p
  | .writeBuffer p => commandWord 0x2 p
  | .readByte p => commandWord 0x3 p
  | .readBuffer p => commandWord 0x4 p
  | .getStatus p => commandWord 0x5 p
  | .getWip p => commandWord 0x6 p
  | .setWriteEnable p => commandWord 0x7 p
  | .readIdPage p => commandWord 0x8 p
  | .writeIdPage p => commandWord 0x9 p
  | .readLockStatus p => commandWord 0xA p
  | .lockId p => commandWord 0xB p
  | .writeDisable p => commandWord 0xC p
  | .writeStatus p => commandWord 0xD p
  | .wireWren => .frame [0x06]
  | .wireWrdi => .frame [0x04]
  | .wireRdsr => .frame [0x05, Config.dummy]
  | .wireWrsr d => .frame [0x01, d]
  | .wireRead a n => .frame (0x03 :: addrBytes a ++ List.replicate n Config.dummy)
  | .wireWrite a ds => .frame (0x02 :: addrBytes a ++ ds)
  | .wireReadId lo n => .frame (0x83 :: 0x00 :: 0x00 :: lo :: List.replicate n Config.dummy)
  | .wireWriteId lo ds => .frame (0x82 :: 0x00 :: 0x00 :: lo :: ds)
  | .wireReadLockStatus => .frame (0x83 :: addrBytes Config.lockAddr ++ [Config.dummy])
  | .wireLockId d => .frame (0x82 :: addrBytes Config.lockAddr ++ [d])

/-! ### The host's table words -/

/-- The frame whose 32-bit header {byte 0, byte 1, byte 2, byte 3}, byte 0 in bits 31:24, is `h` (R105), completed by
zero bytes: for the formats without an address only byte 0 counts. A stream gets one data byte, 0x00
(DESIGN CHOICE, log entry 16: the header fixes no length). -/
def frameOfHeader (h : BitVec 32) : List Byte :=
  let b0 : Byte := h.extractLsb' 24 8
  match b0.toNat with
  | 0x06 => [b0]
  | 0x04 => [b0]
  | 0x05 => [b0, 0x00]
  | 0x01 => [b0, 0x00]
  | _ => [b0, h.extractLsb' 16 8, h.extractLsb' 8 8, h.extractLsb' 0 8, 0x00]

/-- Where a word of the opcode table stands: the wire rows are 32-bit frame headers, the command rows command words
(R102, R105). -/
def ofTableWord (nbits w : Nat) : Encoded :=
  if nbits = 32 then .frame (frameOfHeader (BitVec.ofNat 32 w))
  else .command (BitVec.ofNat Config.commandW (w % 2 ^ nbits))

/-- The instruction the decoder reads from a word of the opcode table, numbered as the table numbers its bits. -/
def decodeTableWord (nbits w : Nat) : Option Instr :=
  match decode (ofTableWord nbits w) with
  | .ok i => some i
  | .error _ => none

end Sys2Proof
end

