-- ==== Sys2Proof/Machine/State.lean ====
section
/-! DEFINITION. The state of the machine as plain data: the block's nine registers (R21 to R29), what stands on its five
ports (R35 to R39), the host's buffer BUF (R37), the reference responder behind the transport (R81), what an observer
records (R9), and which agent moves next. -/

namespace Sys2Proof.Machine

/-- PHASE, where the sequencer stands in the frame (R21). Value 7 is never taken and is left out of the type (U11; log
entry 18). -/
inductive Phase where
  /-- 0: no command in progress; the only phase in which a command is accepted. -/
  | idle
  /-- 1: INIT accepted, transport initialisation not yet called. -/
  | tinit
  /-- 2: opcode byte not yet sent. -/
  | opc
  /-- 3: opcode sent; address high byte next. -/
  | ahi
  /-- 4: address middle byte next. -/
  | amid
  /-- 5: address low byte next. -/
  | alo
  /-- 6: data byte number IDX next. -/
  | data
deriving DecidableEq, Repr

/-- R_ERR, the error code of the last command (R29, R240). Values 5 to 7 are never taken and are left out (U11; log entry
18). -/
inductive ErrorCode where
  /-- 0. -/
  | noError
  /-- 1 (R241). -/
  | addressOutOfRange
  /-- 2 (R242). -/
  | pageBoundaryCrossed
  /-- 3 (R244). -/
  | transportFailure
  /-- 4 (R243). -/
  | illegalCommand
deriving DecidableEq, Repr

/-- A byte-addressed space as (address, byte) pairs, addresses strictly rising, no entry equal to `Config.unlisted`. -/
abbrev Memory := List Host.Cell

/-- The response event of a completion: `rsp_count`, `rsp_data`, `rsp_flag`, `rsp_err` (R36, R150). -/
structure Response where
  count : Len
  data  : Byte
  flag  : Bool
  err   : ErrorCode
deriving DecidableEq, Repr

/-- A transport event, the items of the wire trace (R9, R11). -/
inductive WireEvent where
  | tInit
  | frameBegin
  /-- One exchange with the transport's failure mark (R151). -/
  | xchg (out inp : Byte) (fail : Bool)
  | frameEnd
deriving DecidableEq, Repr

/-- An access to the host's buffer (R37). -/
inductive BufAccess where
  | read (i : Len)
  | write (i : Len) (v : Byte)
deriving DecidableEq, Repr

/-- One answer of the transport: `t_in` and `t_fail` (R38). It answers an exchange, or says that a TInit returned;
TInit has no result and no failure answer (D27). -/
structure Answer where
  inp  : Byte
  fail : Bool
deriving DecidableEq, Repr

/-- Who answers behind the transport port (R80). -/
inductive Link where
  /-- Any transport: its answers in order. When none is left the transport never answers again (R287;
  DESIGN CHOICE, log entry 15). -/
  | scripted (answers : List Answer)
  /-- The reference responder (R81 to R91), which always answers and never fails; a test injects failures, one bit
  per exchange, 0 when the list has run out (R82; DESIGN CHOICE, log entry 20). -/
  | responder (fails : List Bool)
deriving DecidableEq, Repr

/-- The reference responder's state (R81), the chip's registers of R41 to R43. -/
structure Chip where
  /-- MEM, the main array, 18-bit addresses (R61). -/
  mem    : Memory
  /-- IDP, the identification page, 8-bit addresses (R62). -/
  idp    : Memory
  /-- SR, the status register: SRWD bit 7, BP1 bit 3, BP0 bit 2, WEL bit 1, WIP bit 0 (R41). -/
  sr     : Byte
  /-- LOCKED, a one-way latch (R43). -/
  locked : Bool
  /-- rx, the bytes received so far in the open frame, none when no frame is open. -/
  rx     : Option (List Byte)
deriving DecidableEq, Repr

/-- What the agents around the block do before its next move (R8; DESIGN CHOICE, log entry 13). -/
inductive Event where
  /-- None of them acts: the block moves. -/
  | turn
  /-- The reset port `rst` is 1 (R39). It overrides everything else (R270). -/
  | reset
  /-- The host changes the commands it offers: an offer, more offers, or a withdrawal (R141). -/
  | hostOffer (cs : List Command)
  /-- The host stores a byte to BUF (R78, R284). -/
  | hostStore (i : Len) (v : Byte)
  /-- The host writes one of the registers x[0] to x[7]; the write is ignored (R34). -/
  | hostRegWrite (n : Fin 8) (v : BitVec 32)
  /-- Another master of the bus asks to send a frame (R257, R283). -/
  | busRequest (frame : List Byte)
  /-- The chip's internal write cycle ends (R91). -/
  | writeCycleDone
deriving DecidableEq, Repr

/-- The machine. Everything after `rErr` lies outside the block's registers. -/
structure State where
  /-- CHECK_EN and T_CAN_FAIL, fixed for the machine (R7). -/
  cfg       : Params
  /-- PHASE (R21). -/
  phase     : Phase
  /-- IDX, the transfer index (R22). -/
  idx       : Len
  /-- L_OP, the command code in progress or last issued (R23). -/
  lOp       : OpCode
  /-- FADDR, the frame address (R24). -/
  faddr     : FrameAddr
  /-- L_LEN, the number of data-phase bytes (R25). -/
  lLen      : Len
  /-- L_DATA, the data operand (R26). -/
  lData     : Byte
  /-- R_DATA, the last byte received for the host (R27). -/
  rData     : Byte
  /-- R_FLAG, the result of GET_WIP (R28). -/
  rFlag     : Bool
  /-- R_ERR, the error code of the last command (R29). -/
  rErr      : ErrorCode
  /-- BUF, the host's buffer, a total map from LEN_W-bit indices to bytes (R37, U5; log entry 22). -/
  buf       : Memory
  /-- The commands the host has still to issue; the first stands on the command port, `cmd_valid` is 1 while there is
  one (R35, R141). It is the host's program, not a queue of the block (R32). -/
  cmd       : List Command
  /-- The response port's events so far, in order (R36). An observer's record: nothing in the block reads it. -/
  responses : List Response
  /-- The wire trace, the transport events the block has caused, in order (R9). An observer's record. -/
  trace     : List WireEvent
  /-- The block's accesses to BUF, in order (R9, R37). An observer's record. -/
  bufLog    : List BufAccess
  /-- What answers on the transport port (R38, R80). -/
  link      : Link
  /-- The reference responder (R81). -/
  chip      : Chip
  /-- The frames other masters of the bus wait to send (R257). -/
  bus       : List (List Byte)
  /-- The transport events other masters have caused, in order. An observer's record. -/
  busTrace  : List WireEvent
  /-- The model's own: how many free values have been drawn. Not the spec's; it numbers the draws of Config (DESIGN CHOICE, log
  entry 21). -/
  draws     : Nat
  /-- What the agents around the block do, in order; when it is empty the block moves (R8). -/
  agenda    : List Event
deriving DecidableEq, Repr

/-- Why the machine stops. -/
inductive Fault where
  /-- The sequencer stands where no command can bring it: the latched code is reserved, or the latched command has no
  byte to send in this phase. Raised by the sequencer's step; the spec gives no behaviour for such a position (R45,
  U11) and no run from reset reaches one (DEDUCED, log entry 14). Safe: the machine stops where nothing is specified. -/
  | unreachablePosition
deriving DecidableEq, Repr

/-- Why an instruction has no meaning here. -/
inductive Refusal where
  /-- The instruction is not modelled yet. Raised by exec's arms alone. Safe: nothing is claimed about it. -/
  | notModelled (mnemonic : String)
deriving DecidableEq, Repr

/-- The reference responder before anything has reached it: MEM and IDP as `Config.unlisted`, SR = 0x00, LOCKED = 0
(R81; DESIGN CHOICE, log entry 7, after decision D29), no open frame. -/
def Chip.initial : Chip := { mem := [], idp := [], sr := 0x00, locked := false, rx := none }

/-- The machine after reset: every block register 0 (R44, R270), nothing offered, nothing observed. What lies outside
the block is not set by its reset (R272); the values here are log entries 2, 7 and 8. -/
def State.reset : State where
  cfg       := Params.default
  phase     := .idle
  idx       := 0
  lOp       := 0
  faddr     := 0
  lLen      := 0
  lData     := 0
  rData     := 0
  rFlag     := false
  rErr      := .noError
  buf       := []
  cmd       := []
  responses := []
  trace     := []
  bufLog    := []
  link      := .responder []
  chip      := Chip.initial
  bus       := []
  busTrace  := []
  draws     := 0
  agenda    := []

end Sys2Proof.Machine
end

