-- ==== Sys2Proof/Machine/Memory.lean ====
section
/-! DEFINITION. The byte-addressed spaces around the block (R60): one byte per address, one canonical form. -/

namespace Sys2Proof.Machine

/-- The byte at an address; an address not listed reads as `Config.unlisted`. -/
def Memory.read : Memory → Nat → Byte
  | [], _ => Config.unlisted
  | (b, v) :: m, a => if a = b then v else Memory.read m a

/-- Write a byte, keeping the canonical form: the value an unlisted address reads as is not listed. -/
def Memory.write : Memory → Nat → Byte → Memory
  | [], a, v => if v = Config.unlisted then [] else [(a, v)]
  | (b, w) :: m, a, v =>
    if a < b then (if v = Config.unlisted then (b, w) :: m else (a, v) :: (b, w) :: m)
    else if a = b then (if v = Config.unlisted then m else (a, v) :: m)
    else (b, w) :: Memory.write m a v

/-- Every address of the list is at least `lo`, the addresses rise strictly, and no entry is an unlisted value. -/
def Memory.wfFrom (lo : Nat) : Memory → Bool
  | [] => true
  | (a, v) :: m => decide (lo ≤ a) && decide (v ≠ Config.unlisted) && Memory.wfFrom (a + 1) m

/-- The canonical form. -/
def Memory.wf (m : Memory) : Bool := Memory.wfFrom 0 m

/-- Every listed address lies below `hi`: the space has `hi` addresses (R60). -/
def Memory.below (hi : Nat) (m : Memory) : Bool := m.all (fun c => decide (c.1 < hi))

/-- Write the bytes of a stream, byte `i` to `addrOf i`, in order: a later byte that lands on the same location
replaces an earlier one (R86). -/
def Memory.writeRun (m : Memory) (addrOf : Nat → Nat) (i : Nat) : List Byte → Memory
  | [] => m
  | d :: ds => Memory.writeRun (Memory.write m (addrOf i) d) addrOf (i + 1) ds

end Sys2Proof.Machine
end

