-- ==== Sys2Proof/Machine/Chip.lean ====
section
/-! DEFINITION. The reference responder: the chip behind the transport (R80 to R92). The block's own rules never read it
(R80). Much of it is the spec's general knowledge of the part, marked so there (file 93 part 2). -/

namespace Sys2Proof.Machine

/-- WEL, bit 1 of the status register (R41, R81). -/
def Chip.wel (c : Chip) : Bool := c.sr.getLsbD 1

/-- WIP, bit 0 of the status register (R41, R81). -/
def Chip.wip (c : Chip) : Bool := c.sr.getLsbD 0

/-- Mask of SRWD, BP1 and BP0 (R41). -/
def protectMask : Byte := 0x8C

/-- Whether an enabled write frame is accepted: WEL must be set. With SRWD, BP1 or BP0 set the spec does not define
the chip (R86, R92, U9): a free value, log entry 6. -/
def Chip.accepts (c : Chip) (rx : List Byte) : Bool :=
  c.wel && (if c.sr &&& protectMask = 0 then true else Config.protectedAccepts c.sr rx)

/-- A write cycle starts: WIP becomes 1. -/
def Chip.startCycle (c : Chip) : Chip := { c with sr := c.sr ||| 0x01 }

/-- The MAIN address of data byte `i` of a WRITE frame: the page stays, the offset wraps in it (R67, R86). -/
def mainWriteAddr (a : FrameAddr) (i : Nat) : Nat :=
  a.toNat % Config.capacity / Config.pageSize * Config.pageSize + (a.toNat % Config.pageSize + i) % Config.pageSize

/-- The MAIN address of data byte `k` of a READ frame: it rolls over at the top of the array (R83 c). -/
def mainReadAddr (a : FrameAddr) (k : Nat) : Nat := (a.toNat % Config.capacity + k) % Config.capacity

/-- The IDP address of data byte `i` of a WRITE_ID frame (R88). -/
def idWriteAddr (a : FrameAddr) (i : Nat) : Nat := (a.toNat % Config.idPageSize + i) % Config.idPageSize

/-- Bit A10 of the frame address: 0 the ID page, 1 the lock sub-protocol (R63). -/
def bitA10 (a : FrameAddr) : Bool := a.getLsbD 10

/-- WREN sets WEL (R85). With SRWD, BP1 or BP0 set the spec leaves the chip open (R92, U9); that WREN sets WEL there
too is a DESIGN CHOICE, log entry 24. -/
def Chip.effectWren (c : Chip) : Chip := { c with sr := c.sr ||| 0x02 }

/-- WRDI clears WEL (R85). With SRWD, BP1 or BP0 set the spec leaves the chip open (R92, U9); that WRDI clears WEL
there too is a DESIGN CHOICE, log entry 24. -/
def Chip.effectWrdi (c : Chip) : Chip := { c with sr := c.sr &&& 0xFD }

/-- WRSR writes SRWD, BP1 and BP0 from the data byte and starts a write cycle; bits 6:4 stay 0, WEL and WIP are not
written by it (R90). -/
def Chip.effectWrsr (c : Chip) (d : Byte) : Chip :=
  if c.accepts [0x01, d] then
    Chip.startCycle { c with sr := (d &&& protectMask) ||| (c.sr &&& 0x03) }
  else c

/-- WRITE stores its data bytes into one page of MAIN and starts a write cycle; with no data byte it has no effect
(R86). -/
def Chip.effectWrite (c : Chip) (a : FrameAddr) (ds : List Byte) : Chip :=
  if ds ≠ [] ∧ c.accepts (0x02 :: addrBytes a ++ ds) then
    Chip.startCycle { c with mem := c.mem.writeRun (mainWriteAddr a) 0 ds }
  else c

/-- WRITE_ID stores its data bytes into the ID page and starts a write cycle; a locked page makes it a no-op (R88). -/
def Chip.effectWriteId (c : Chip) (a : FrameAddr) (ds : List Byte) : Chip :=
  if ds ≠ [] ∧ c.locked = false ∧ c.accepts (0x82 :: addrBytes a ++ ds) then
    Chip.startCycle { c with idp := c.idp.writeRun (idWriteAddr a) 0 ds }
  else c

/-- LOCK_ID: exactly one data byte of the pattern `xxxxxx1x` sets LOCKED and starts a write cycle (R89). -/
def Chip.effectLockId (c : Chip) (a : FrameAddr) (ds : List Byte) : Chip :=
  match ds with
  | [d] =>
    if d.getLsbD 1 ∧ c.accepts (0x82 :: addrBytes a ++ [d]) then Chip.startCycle { c with locked := true } else c
  | _ => c

/-- What the received frame does when it ends. While a write cycle runs nothing does anything (R84); an unknown opcode
or a frame of another length has no effect (R92, U12); a read has none (R87, R88). -/
def Chip.effect (c : Chip) (rx : List Byte) : Chip :=
  if c.wip then c
  else
    match rx with
    | [] => c
    | op :: rest =>
      match op.toNat with
      | 0x06 => if rest.isEmpty then c.effectWren else c
      | 0x04 => if rest.isEmpty then c.effectWrdi else c
      | 0x01 =>
        match rest with
        | [d] => c.effectWrsr d
        | _ => c
      | 0x02 =>
        match rest with
        | hi :: mid :: lo :: ds => c.effectWrite (addrOfBytes hi mid lo) ds
        | _ => c
      | 0x82 =>
        match rest with
        | hi :: mid :: lo :: ds =>
          if bitA10 (addrOfBytes hi mid lo) then c.effectLockId (addrOfBytes hi mid lo) ds
          else c.effectWriteId (addrOfBytes hi mid lo) ds
        | _ => c
      | _ => c

/-- The lock status byte: LOCKED in bit 0, bits 7:1 unspecified (R83 e). -/
def lockStatusByte (locked : Bool) (free : Byte) : Byte :=
  (free &&& 0xFE) ||| (if locked then 0x01 else 0x00)

/-- The byte answered to an exchange, from the state before the byte being sent; `free` is the draw used where the
answer is unspecified (R83). The answers do not look at SRWD, BP1 and BP0 (DESIGN CHOICE, log entry 24). -/
def Chip.answer (c : Chip) (free : Byte) : Byte :=
  match c.rx with
  | none => free
  | some [] => free
  | some (op :: rest) =>
    if op = 0x05 then c.sr
    else if c.wip then free
    else
      match rest with
      | hi :: mid :: lo :: ds =>
        let a := addrOfBytes hi mid lo
        if op = 0x03 then c.mem.read (mainReadAddr a ds.length)
        else if op = 0x83 then
          if bitA10 a then lockStatusByte c.locked free
          else if a.toNat % Config.idPageSize + ds.length < Config.idPageSize then
            c.idp.read (a.toNat % Config.idPageSize + ds.length)
          else free
        else free
      | _ => free

/-- FrameBegin: the received bytes are none yet (R82). -/
def Chip.openFrame (c : Chip) : Chip := { c with rx := some [] }

/-- A byte arrives in the open frame (R82). -/
def Chip.receive (c : Chip) (out : Byte) : Chip := { c with rx := c.rx.map (· ++ [out]) }

/-- FrameEnd: the frame takes effect (R82). -/
def Chip.frameEnd (c : Chip) : Chip :=
  match c.rx with
  | none => c
  | some rx => { c.effect rx with rx := none }

/-- A cut frame that has no effect (U7). -/
def Chip.dropFrame (c : Chip) : Chip := { c with rx := none }

/-- `write_cycle_done`, enabled exactly when WIP = 1: WIP and WEL become 0 (R91), also with SRWD, BP1 or BP0
set (DESIGN CHOICE, log entry 24). -/
def Chip.writeCycleDone (c : Chip) : Chip :=
  if c.wip then { c with sr := c.sr &&& 0xFC } else c

end Sys2Proof.Machine
end

