-- ==== Sys2Proof/Machine/Operands.lean ====
section
/-! DEFINITION. The command descriptor table (R101) and the functions of a command's operands: the address-frame encoder
(R110 to R114), the effective length (R103), the issue checks' conditions (R241, R242). -/

namespace Sys2Proof.Machine

/-- The kind of a command's address field, column akind (R101). -/
inductive AddrKind where
  | noAddr
  | main
  | id
  | lock
deriving DecidableEq, Repr

/-- The direction of the data phase, column dir (R101). -/
inductive DataDir where
  | noData
  | read
  | write
deriving DecidableEq, Repr

/-- The length of the data phase, column nlen (R101, R103). -/
inductive LenKind where
  | fixed (n : Len)
  | cmdLen
deriving DecidableEq, Repr

/-- Where write data comes from, column src (R101). -/
inductive DataSrc where
  | noSrc
  | lData
  | buf
  | const (b : Byte)
deriving DecidableEq, Repr

/-- Where read data goes, column sink (R101). -/
inductive DataSink where
  | noSink
  | rData
  | rDataAndFlag
  | buf
  | bufZeroAndRData
deriving DecidableEq, Repr

/-- A row of the command descriptor table (R101). -/
structure Descriptor where
  /-- `cmd_op` (R100). -/
  op        : OpCode
  /-- wop; INIT has none. -/
  wop       : Option Byte
  akind     : AddrKind
  dir       : DataDir
  nlen      : LenKind
  src       : DataSrc
  sink      : DataSink
  /-- Whether the page check applies: WRITE_BUFFER and WRITE_ID_PAGE (R142, R242). -/
  pageCheck : Bool
deriving DecidableEq, Repr

def rowInit : Descriptor :=
  { op := 0x0, wop := none, akind := .noAddr, dir := .noData, nlen := .fixed 0, src := .noSrc, sink := .noSink,
    pageCheck := false }

def rowWriteByte : Descriptor :=
  { op := 0x1, wop := some 0x02, akind := .main, dir := .write, nlen := .fixed 1, src := .lData, sink := .noSink,
    pageCheck := false }

def rowWriteBuffer : Descriptor :=
  { op := 0x2, wop := some 0x02, akind := .main, dir := .write, nlen := .cmdLen, src := .buf, sink := .noSink,
    pageCheck := true }

def rowReadByte : Descriptor :=
  { op := 0x3, wop := some 0x03, akind := .main, dir := .read, nlen := .fixed 1, src := .noSrc, sink := .rData,
    pageCheck := false }

def rowReadBuffer : Descriptor :=
  { op := 0x4, wop := some 0x03, akind := .main, dir := .read, nlen := .cmdLen, src := .noSrc, sink := .buf,
    pageCheck := false }

def rowGetStatus : Descriptor :=
  { op := 0x5, wop := some 0x05, akind := .noAddr, dir := .read, nlen := .fixed 1, src := .noSrc, sink := .rData,
    pageCheck := false }

def rowGetWip : Descriptor :=
  { op := 0x6, wop := some 0x05, akind := .noAddr, dir := .read, nlen := .fixed 1, src := .noSrc,
    sink := .rDataAndFlag, pageCheck := false }

def rowSetWriteEnable : Descriptor :=
  { op := 0x7, wop := some 0x06, akind := .noAddr, dir := .noData, nlen := .fixed 0, src := .noSrc, sink := .noSink,
    pageCheck := false }

def rowReadIdPage : Descriptor :=
  { op := 0x8, wop := some 0x83, akind := .id, dir := .read, nlen := .cmdLen, src := .noSrc, sink := .buf,
    pageCheck := false }

def rowWriteIdPage : Descriptor :=
  { op := 0x9, wop := some 0x82, akind := .id, dir := .write, nlen := .cmdLen, src := .buf, sink := .noSink,
    pageCheck := true }

def rowReadLockStatus : Descriptor :=
  { op := 0xA, wop := some 0x83, akind := .lock, dir := .read, nlen := .fixed 1, src := .noSrc,
    sink := .bufZeroAndRData, pageCheck := false }

def rowLockId : Descriptor :=
  { op := 0xB, wop := some 0x82, akind := .lock, dir := .write, nlen := .fixed 1, src := .const Config.lockData,
    sink := .noSink, pageCheck := false }

def rowWriteDisable : Descriptor :=
  { op := 0xC, wop := some 0x04, akind := .noAddr, dir := .noData, nlen := .fixed 0, src := .noSrc, sink := .noSink,
    pageCheck := false }

def rowWriteStatus : Descriptor :=
  { op := 0xD, wop := some 0x01, akind := .noAddr, dir := .write, nlen := .fixed 1, src := .lData, sink := .noSink,
    pageCheck := false }

/-- The row a command code selects, none for the reserved codes (R101, R120). -/
def descriptor (op : OpCode) : Option Descriptor :=
  match op.toNat with
  | 0x0 => some rowInit
  | 0x1 => some rowWriteByte
  | 0x2 => some rowWriteBuffer
  | 0x3 => some rowReadByte
  | 0x4 => some rowReadBuffer
  | 0x5 => some rowGetStatus
  | 0x6 => some rowGetWip
  | 0x7 => some rowSetWriteEnable
  | 0x8 => some rowReadIdPage
  | 0x9 => some rowWriteIdPage
  | 0xA => some rowReadLockStatus
  | 0xB => some rowLockId
  | 0xC => some rowWriteDisable
  | 0xD => some rowWriteStatus
  | _ => none

/-- The address-frame encoder `enc(akind, cmd_addr)`, total (R110 to R113). -/
def encodeAddr (k : AddrKind) (addr : HostAddr) : FrameAddr :=
  match k with
  | .main => addr.extractLsb' 0 24
  | .id => (0 : BitVec 16) ++ addr.extractLsb' 0 8
  | .lock => Config.lockAddr
  | .noAddr => 0

/-- The effective length `nlen(op, cmd_len)` (R103). -/
def Descriptor.length (d : Descriptor) (len : Len) : Len :=
  match d.nlen with
  | .fixed n => n
  | .cmdLen => len

/-- The cause of AddressOutOfRange: the whole 32-bit operand is compared, the start address only (R241). -/
def Descriptor.outOfRange (d : Descriptor) (addr : HostAddr) : Bool :=
  match d.akind with
  | .main => decide (Config.capacity ≤ addr.toNat)
  | .id => decide (2 ^ 8 ≤ addr.toNat)
  | .lock => false
  | .noAddr => false

/-- The cause of PageBoundaryCrossed: the sum is exact, never modulo 2^LEN_W (R70, R242). -/
def Descriptor.crossesPage (d : Descriptor) (p : Payload) : Bool :=
  d.pageCheck && decide (Config.pageSize < (p.addr.extractLsb' 0 8).toNat + (d.length p.len).toNat)

/-- The first issue check a command fails, AddressOutOfRange before PageBoundaryCrossed; with CHECK_EN = 0 none is
made (R142, R245). -/
def Descriptor.issueError (d : Descriptor) (checkEn : Bool) (p : Payload) : Option ErrorCode :=
  if checkEn && d.outOfRange p.addr then some .addressOutOfRange
  else if checkEn && d.crossesPage p then some .pageBoundaryCrossed
  else none

end Sys2Proof.Machine
end

