-- ==== Sys2Proof/Machine/Flags.lean ====
section
/-! DEFINITION. The flags and the signals derived from the registers (R30, R31, R36, R38), and the eight host-visible
registers (R34). -/

namespace Sys2Proof.Machine

/-- The three bits of PHASE (R21, decision D31). -/
def Phase.code : Phase → BitVec 3
  | .idle => 0
  | .tinit => 1
  | .opc => 2
  | .ahi => 3
  | .amid => 4
  | .alo => 5
  | .data => 6

/-- The three bits of R_ERR (R29, R240). -/
def ErrorCode.code : ErrorCode → BitVec 3
  | .noError => 0
  | .addressOutOfRange => 1
  | .pageBoundaryCrossed => 2
  | .transportFailure => 3
  | .illegalCommand => 4

/-- PHASE ∈ {OPC, AHI, AMID, ALO, DATA}: a frame is open (R30). -/
def Phase.inFrame : Phase → Bool
  | .idle => false
  | .tinit => false
  | .opc => true
  | .ahi => true
  | .amid => true
  | .alo => true
  | .data => true

/-- BUSY (R30). -/
def State.busy (s : State) : Bool := decide (s.phase ≠ .idle)

/-- `cmd_ready` (R30, R35). -/
def State.cmdReady (s : State) : Bool := decide (s.phase = .idle)

/-- `frame_active` (R30, R40). -/
def State.frameActive (s : State) : Bool := s.phase.inFrame

/-- ERRF (R30). -/
def State.errf (s : State) : Bool := decide (s.rErr ≠ .noError)

/-- `cmd_valid`: the host offers a command (R35). -/
def State.cmdValid (s : State) : Bool := !s.cmd.isEmpty

/-- `t_req`: the block waits for the answer to an exchange (R38). -/
def State.tReq (s : State) : Bool := s.phase.inFrame

/-- `t_init`: the block waits for the transport's initialisation (R38, R144). -/
def State.tInit (s : State) : Bool := decide (s.phase = .tinit)

/-- WIP_BIT: `(in & 0x01) ≠ 0` (R28, R117, R201). -/
def wipFlag (inp : Byte) : Bool := decide (inp &&& 0x01 ≠ 0)

/-- STAT: BUSY bit 0, ERRF bit 1, R_FLAG bit 2, frame_active bit 3, PHASE bits 6:4 (R34). -/
def State.stat (s : State) : BitVec 32 :=
  (s.phase.code ++ BitVec.ofBool s.frameActive ++ BitVec.ofBool s.rFlag ++ BitVec.ofBool s.errf ++
    BitVec.ofBool s.busy).setWidth 32

/-- The host-visible register x[n], max(32, LEN_W) = 32 bits, bits not listed read 0 (R34). -/
def State.reg (s : State) (n : Fin 8) : BitVec 32 :=
  match n.val with
  | 0 => s.stat
  | 1 => s.rErr.code.setWidth 32
  | 2 => s.idx.setWidth 32
  | 3 => s.rData.setWidth 32
  | 4 => s.lOp.setWidth 32
  | 5 => s.faddr.setWidth 32
  | 6 => s.lLen.setWidth 32
  | _ => s.lData.setWidth 32

/-- A host write to a register: ignored, all eight are read-only (R34). -/
def State.regWrite (s : State) (_n : Fin 8) (_v : BitVec 32) : State := s

end Sys2Proof.Machine
end

