-- ==== Sys2Proof/Machine/Ops.lean ====
section
/-! DEFINITION. The named operations every command shares: the ports (R36 to R38, R40), the error entry (R246, R247), the
dispatcher's issue (R142), the sequencer's step (R144 to R151), and a frame of another master of the bus (R257). -/

namespace Sys2Proof.Machine

/-! ### The ports -/

/-- Whether the reference responder is behind the transport port (R80). -/
def Link.attached : Link → Bool
  | .scripted _ => false
  | .responder _ => true

/-- FrameBegin: the rise of `frame_active` (R11, R40). -/
def State.frameBegin (s : State) : State :=
  { s with
    trace := s.trace ++ [.frameBegin]
    chip := if s.link.attached then s.chip.openFrame else s.chip }

/-- FrameEnd: the fall of `frame_active` (R11, R40). -/
def State.frameEnd (s : State) : State :=
  { s with
    trace := s.trace ++ [.frameEnd]
    chip := if s.link.attached then s.chip.frameEnd else s.chip }

/-- `complete`: the response event, once per command (R36, R150). -/
def State.complete (s : State) : State :=
  { s with responses := s.responses ++ [{ count := s.idx, data := s.rData, flag := s.rFlag, err := s.rErr }] }

/-- BufRead(i): the byte of the host's buffer at index `i` (R11, R37). -/
def State.bufAt (s : State) (i : Len) : Byte := s.buf.read i.toNat

/-- BufWrite(i, v) (R11, R37). -/
def State.bufWrite (s : State) (i : Len) (v : Byte) : State :=
  { s with buf := s.buf.write i.toNat v, bufLog := s.bufLog ++ [.write i v] }

/-- A completed exchange: the byte received, the failure bit, and the state after it. -/
structure Exchanged where
  inp   : Byte
  fail  : Bool
  after : State
deriving DecidableEq, Repr

/-- `Xchg(out)`: one call of the transport's exchange primitive, none while the transport does not answer (R11, R38).
With T_CAN_FAIL = 0 the failure bit is tied to 0 (R7, R244). -/
def State.xchg (s : State) (out : Byte) : Option Exchanged :=
  match s.link with
  | .scripted [] => none
  | .scripted (a :: as) =>
    let fail := a.fail && s.cfg.tCanFail
    some
      { inp := a.inp
        fail := fail
        after := { s with link := .scripted as, trace := s.trace ++ [.xchg out a.inp fail] } }
  | .responder fs =>
    let fail := fs.headD false && s.cfg.tCanFail
    let inp := s.chip.answer (Config.unspecifiedByte s.draws)
    some
      { inp := inp
        fail := fail
        after :=
          { s with
            link := .responder fs.tail
            chip := if !fail || Config.failedByteReceived s.draws then s.chip.receive out else s.chip
            draws := s.draws + 1
            trace := s.trace ++ [.xchg out inp fail] } }

/-- `TInit()`: one call of the transport's own initialisation, none while it does not return (R11, R144, R287). It has
no failure answer (R155, decision D27). -/
def State.transportInit (s : State) : Option State :=
  match s.link with
  | .scripted [] => none
  | .scripted (_ :: as) => some { s with link := .scripted as, trace := s.trace ++ [.tInit] }
  | .responder _ => some { s with trace := s.trace ++ [.tInit] }

/-! ### Errors -/

/-- FrameEnd where a frame is open, nothing where none is. -/
def State.closeFrame (s : State) : State := if s.frameActive then s.frameEnd else s

/-- Error entry, the block's one way to take an exception (R246, R247): R_ERR gets the code, IDX and the result
latches keep their values, PHASE is IDLE, an open frame ends, and the command completes. At issue no frame is open
(R246); in a frame it ends (R247). There is no vector, mode or stack (R248). -/
def State.raise (e : ErrorCode) (s : State) : State :=
  State.complete { s.closeFrame with rErr := e, phase := .idle }

/-- What every issue does first, also a refused one: the command leaves the port, the result latches and IDX are
cleared, L_OP takes the code (R142, decision D17). Clearing R_ERR is all the return from an error there is (R249). -/
def State.beginIssue (op : OpCode) (s : State) : State :=
  { s with cmd := s.cmd.tail, rErr := .noError, rData := 0, rFlag := false, idx := 0, lOp := op }

/-! ### The dispatcher -/

/-- The accepting half of an issue: the latches, then the first phase (R142). -/
def Descriptor.accept (d : Descriptor) (p : Payload) (s : State) : State :=
  let latched :=
    { s with faddr := encodeAddr d.akind p.addr, lLen := d.length p.len, lData := p.data }
  match d.wop with
  | none => { latched with phase := .tinit }
  | some _ => State.frameBegin { latched with phase := .opc }

/-- Issue of a command whose code is not reserved, PHASE = IDLE, one atomic action (R142). -/
def Descriptor.issue (d : Descriptor) (p : Payload) (s : State) : State :=
  match d.issueError s.cfg.checkEn p with
  | some e => (s.beginIssue d.op).raise e
  | none => d.accept p (s.beginIssue d.op)

/-- Issue of a reserved code: IllegalCommand, whatever CHECK_EN is and before anything else is looked at (R120, R142,
R243). -/
def State.issueReserved (op : OpCode) (s : State) : State := (s.beginIssue op).raise .illegalCommand

/-! ### The sequencer -/

/-- The normal end of a command's last step (R145, R147, R148). -/
def State.finish (s : State) : State := State.complete (State.frameEnd { s with phase := .idle })

/-- One exchange step: `out` is sent from `pre`; the failure step replaces the normal end (R151); a transport that
does not answer leaves the machine where it is (R287). -/
def State.exchange (s pre : State) (out : Byte) (next : Byte → State → State) :
    Host.Outcome State Fault Refusal :=
  match pre.xchg out with
  | none => .next s
  | some x => if x.fail then .next (x.after.raise .transportFailure) else .next (next x.inp x.after)

/-- `dout(IDX)`, the byte sent in a DATA step (R116); none where the row has no data phase. -/
def Descriptor.dataOut (d : Descriptor) (s : State) : Option Byte :=
  match d.dir with
  | .noData => none
  | .read => some Config.dummy
  | .write =>
    match d.src with
    | .noSrc => none
    | .lData => some s.lData
    | .buf => some (s.bufAt s.idx)
    | .const b => some b

/-- The BUF access `dout(IDX)` makes (R37, R116). -/
def Descriptor.noteBufRead (d : Descriptor) (s : State) : State :=
  if d.dir = .write ∧ d.src = .buf then { s with bufLog := s.bufLog ++ [.read s.idx] } else s

/-- The BUF index a DATA step stores the received byte to: IDX for the read streams, 0 for READ_LOCK_STATUS, none
otherwise (R117). -/
def Descriptor.storeIndex (d : Descriptor) (s : State) : Option Len :=
  if d.dir = .read then
    match d.sink with
    | .buf => some s.idx
    | .bufZeroAndRData => some 0
    | .rData => none
    | .rDataAndFlag => none
    | .noSink => none
  else none

/-- Whether `din` latches the received byte in R_DATA (R27, R117). -/
def Descriptor.latchesRData (d : Descriptor) : Bool :=
  decide (d.dir = .read) &&
    (decide (d.sink = .rData) || decide (d.sink = .rDataAndFlag) || decide (d.sink = .bufZeroAndRData))

/-- Whether `din` sets R_FLAG (R28, R117). -/
def Descriptor.latchesRFlag (d : Descriptor) : Bool :=
  decide (d.dir = .read) && decide (d.sink = .rDataAndFlag)

/-- `din(IDX, in)`, what is done with the byte received in a DATA step (R117). -/
def Descriptor.dataIn (d : Descriptor) (inp : Byte) (s : State) : State :=
  let stored :=
    match d.storeIndex s with
    | some i => s.bufWrite i inp
    | none => s
  { stored with
    rData := if d.latchesRData then inp else stored.rData
    rFlag := if d.latchesRFlag then wipFlag inp else stored.rFlag }

/-- The end of a good OPC step (R145). -/
def Descriptor.afterOpcode (d : Descriptor) (s : State) : State :=
  if d.akind ≠ .noAddr then { s with phase := .ahi }
  else if s.lLen = 0 then s.finish
  else { s with phase := .data }

/-- The end of a good ALO step (R147). -/
def State.afterAddress (s : State) : State :=
  if s.lLen = 0 then s.finish else { s with phase := .data }

/-- The end of a good DATA step: the byte is consumed, IDX counts it, and the last one ends the frame (R148). -/
def Descriptor.afterData (d : Descriptor) (inp : Byte) (s : State) : State :=
  let counted := { d.dataIn inp s with idx := s.idx + 1 }
  if counted.idx = counted.lLen then counted.finish else counted

/-- One step of the command in progress, by PHASE (R144 to R148, R151). -/
def Descriptor.advance (d : Descriptor) (s : State) : Host.Outcome State Fault Refusal :=
  match s.phase with
  | .idle => .next s
  | .tinit =>
    match s.transportInit with
    | none => .next s
    | some t => .next (State.complete { t with phase := .idle })
  | .opc =>
    match d.wop with
    | none => .fault .unreachablePosition
    | some w => s.exchange s w (fun _ t => d.afterOpcode t)
  | .ahi => s.exchange s (addrHi s.faddr) (fun _ t => { t with phase := .amid })
  | .amid => s.exchange s (addrMid s.faddr) (fun _ t => { t with phase := .alo })
  | .alo => s.exchange s (addrLo s.faddr) (fun _ t => t.afterAddress)
  | .data =>
    match d.dataOut s with
    | none => .fault .unreachablePosition
    | some out => s.exchange (d.noteBufRead s) out (fun inp t => d.afterData inp t)

/-- What the block does with a command as its current one: issue it when IDLE (R142), take its next step when it is
the command in progress (R144 to R151), and nothing when another command is (R141). -/
def Descriptor.execute (d : Descriptor) (p : Payload) (s : State) : Host.Outcome State Fault Refusal :=
  if s.phase = .idle then .next (d.issue p s)
  else if s.lOp = d.op then d.advance s
  else .next s

/-- `t_out`, the byte the block presents while it waits for an exchange (R38). -/
def State.tOut (s : State) : Option Byte :=
  match descriptor s.lOp with
  | none => none
  | some d =>
    match s.phase with
    | .idle => none
    | .tinit => none
    | .opc => d.wop
    | .ahi => some (addrHi s.faddr)
    | .amid => some (addrMid s.faddr)
    | .alo => some (addrLo s.faddr)
    | .data => d.dataOut s

/-! ### Frames of other masters of the bus -/

/-- One exchange of another master with the responder (R82). -/
def State.foreignByte (s : State) (out : Byte) : State :=
  { s with
    chip := s.chip.receive out
    draws := s.draws + 1
    busTrace := s.busTrace ++ [.xchg out (s.chip.answer (Config.unspecifiedByte s.draws)) false] }

/-- The exchanges of a foreign frame, byte after byte (R82). -/
def State.foreignBytes (s : State) (bytes : List Byte) : State := bytes.foldl State.foreignByte s

/-- A foreign frame begins: it leaves the waiting list, and the chip's received bytes are none yet (R82). -/
def State.foreignBegin (s : State) : State :=
  { s with
    bus := s.bus.tail
    chip := s.chip.openFrame
    busTrace := s.busTrace ++ [.frameBegin] }

/-- A foreign frame ends and takes effect (R82). -/
def State.foreignEnd (s : State) : State :=
  { s with chip := s.chip.frameEnd, busTrace := s.busTrace ++ [.frameEnd] }

/-- A whole frame another master of the bus sends to the chip. It keeps off the bus while `frame_active` is 1 (R257,
R283): then nothing is sent and the frame goes on waiting. -/
def State.foreignFrame (bytes : List Byte) (s : State) : State :=
  if s.frameActive then s else ((s.foreignBegin).foreignBytes bytes).foreignEnd

end Sys2Proof.Machine
end

