-- ==== Sys2Proof/Machine/Dispatcher.lean ====
section
/-! DEFINITION. The command of file 40: INIT. Each meaning is the whole command: its issue and every step of
its frame, from its row of the descriptor table (R101). -/

namespace Sys2Proof.Machine

/-- INIT: `initialize()`. One TInit, no frame, no result (R155). -/
def execInit (p : Payload) (s : State) : Host.Outcome State Fault Refusal := rowInit.execute p s

end Sys2Proof.Machine
end

