-- ==== Sys2Proof/Machine/IdLock.lean ====
section
/-! DEFINITION. The commands of file 43: the identification page and the lock (R220 to R224). Each meaning is the whole command: its issue and every step of
its frame, from its row of the descriptor table (R101). -/

namespace Sys2Proof.Machine

/-- READ_ID_PAGE: opcode 0x83, address (0, 0, idAddress), cmd_len dummies; byte i goes to BUF[i] (R220). -/
def execReadIdPage (p : Payload) (s : State) : Host.Outcome State Fault Refusal := rowReadIdPage.execute p s

/-- WRITE_ID_PAGE: opcode 0x82, address (0, 0, idAddress), BUF[0 .. cmd_len - 1]; range and page checks (R221). -/
def execWriteIdPage (p : Payload) (s : State) : Host.Outcome State Fault Refusal := rowWriteIdPage.execute p s

/-- READ_LOCK_STATUS: opcode 0x83, address 0x000400, one dummy; the byte goes to BUF[0] and R_DATA (R222). -/
def execReadLockStatus (p : Payload) (s : State) : Host.Outcome State Fault Refusal := rowReadLockStatus.execute p s

/-- LOCK_ID: opcode 0x82, address 0x000400, the data byte 0x02 (R223). -/
def execLockId (p : Payload) (s : State) : Host.Outcome State Fault Refusal := rowLockId.execute p s

end Sys2Proof.Machine
end

