-- ==== Sys2Proof/Machine/MainArray.lean ====
section
/-! DEFINITION. The commands of file 41 on the main array (R180 to R184). Each meaning is the whole command: its issue and every step of
its frame, from its row of the descriptor table (R101). -/

namespace Sys2Proof.Machine

/-- WRITE_BYTE: opcode 0x02, three address bytes, L_DATA; count 1 (R180). -/
def execWriteByte (p : Payload) (s : State) : Host.Outcome State Fault Refusal := rowWriteByte.execute p s

/-- WRITE_BUFFER: opcode 0x02, three address bytes, BUF[0 .. cmd_len - 1]; range and page checks (R181). -/
def execWriteBuffer (p : Payload) (s : State) : Host.Outcome State Fault Refusal := rowWriteBuffer.execute p s

/-- READ_BYTE: opcode 0x03, three address bytes, one dummy; the byte received goes to R_DATA (R182). -/
def execReadByte (p : Payload) (s : State) : Host.Outcome State Fault Refusal := rowReadByte.execute p s

/-- READ_BUFFER: opcode 0x03, three address bytes, cmd_len dummies; byte i goes to BUF[i] (R183). -/
def execReadBuffer (p : Payload) (s : State) : Host.Outcome State Fault Refusal := rowReadBuffer.execute p s

end Sys2Proof.Machine
end

