-- ==== Sys2Proof/Machine/StatusLatch.lean ====
section
/-! DEFINITION. The commands of file 42: the status register and the write-enable latch (R200 to R205). Each meaning is the whole command: its issue and every step of
its frame, from its row of the descriptor table (R101). -/

namespace Sys2Proof.Machine

/-- GET_STATUS: opcode 0x05 and one dummy; the byte received goes to R_DATA verbatim (R200). -/
def execGetStatus (p : Payload) (s : State) : Host.Outcome State Fault Refusal := rowGetStatus.execute p s

/-- GET_WIP: the frame of GET_STATUS; R_DATA gets the byte and R_FLAG its bit 0 (R201). -/
def execGetWip (p : Payload) (s : State) : Host.Outcome State Fault Refusal := rowGetWip.execute p s

/-- SET_WRITE_ENABLE: opcode 0x06 alone (R202). -/
def execSetWriteEnable (p : Payload) (s : State) : Host.Outcome State Fault Refusal := rowSetWriteEnable.execute p s

/-- WRITE_DISABLE: opcode 0x04 alone (R203). -/
def execWriteDisable (p : Payload) (s : State) : Host.Outcome State Fault Refusal := rowWriteDisable.execute p s

/-- WRITE_STATUS: opcode 0x01 and L_DATA (R204). -/
def execWriteStatus (p : Payload) (s : State) : Host.Outcome State Fault Refusal := rowWriteStatus.execute p s

end Sys2Proof.Machine
end

