-- ==== Sys2Proof/Machine/Wire.lean ====
section
/-! DEFINITION. The wire frames as the chip's instructions (R105): a whole frame that reaches the responder from another
master of the bus, with every answer of R83 and the effect of R85 to R90 at its end. The block's own frames reach the
responder byte by byte, through the same operations (Ops, Chip). DESIGN CHOICE, log entry 12. -/

namespace Sys2Proof.Machine

/-- wire WREN: sets WEL unless a write cycle runs (R84, R85). -/
def execWireWren (s : State) : Host.Outcome State Fault Refusal :=
  .next (s.foreignFrame [0x06])

/-- wire WRDI: clears WEL unless a write cycle runs (R84, R85). -/
def execWireWrdi (s : State) : Host.Outcome State Fault Refusal :=
  .next (s.foreignFrame [0x04])

/-- wire RDSR: answers the status register, also during a write cycle (R83 b). -/
def execWireRdsr (s : State) : Host.Outcome State Fault Refusal :=
  .next (s.foreignFrame [0x05, Config.dummy])

/-- wire WRSR: with WEL set writes SRWD, BP1, BP0 and starts a write cycle (R90). -/
def execWireWrsr (data : Byte) (s : State) : Host.Outcome State Fault Refusal :=
  .next (s.foreignFrame [0x01, data])

/-- wire READ: answers `n` bytes of MAIN from the address on (R83 c, R87). -/
def execWireRead (addr : FrameAddr) (n : Nat) (s : State) : Host.Outcome State Fault Refusal :=
  .next (s.foreignFrame (0x03 :: addrBytes addr ++ List.replicate n Config.dummy))

/-- wire WRITE: with WEL set stores the data bytes in one page of MAIN and starts a write cycle (R86). -/
def execWireWrite (addr : FrameAddr) (data : List Byte) (s : State) : Host.Outcome State Fault Refusal :=
  .next (s.foreignFrame (0x02 :: addrBytes addr ++ data))

/-- wire READ_ID: answers `n` bytes of the ID page (R83 d, R88). -/
def execWireReadId (lo : Byte) (n : Nat) (s : State) : Host.Outcome State Fault Refusal :=
  .next (s.foreignFrame (0x83 :: 0x00 :: 0x00 :: lo :: List.replicate n Config.dummy))

/-- wire WRITE_ID: with WEL set and the page not locked stores the data bytes and starts a write cycle (R88). -/
def execWireWriteId (lo : Byte) (data : List Byte) (s : State) : Host.Outcome State Fault Refusal :=
  .next (s.foreignFrame (0x82 :: 0x00 :: 0x00 :: lo :: data))

/-- wire READ_LOCK_STATUS: answers LOCKED in bit 0 (R83 e). -/
def execWireReadLockStatus (s : State) : Host.Outcome State Fault Refusal :=
  .next (s.foreignFrame (0x83 :: addrBytes Config.lockAddr ++ [Config.dummy]))

/-- wire LOCK_ID: with WEL set and a data byte of the pattern `xxxxxx1x` sets LOCKED for good (R89). -/
def execWireLockId (data : Byte) (s : State) : Host.Outcome State Fault Refusal :=
  .next (s.foreignFrame (0x82 :: addrBytes Config.lockAddr ++ [data]))

end Sys2Proof.Machine
end

