-- ==== Sys2Proof/Machine/Dispatch.lean ====
section
/-! DEFINITION. Every instruction's arm: one direct call of its meaning. -/

namespace Sys2Proof.Machine

def exec (i : Instr) (s : State) : Host.Outcome State Fault Refusal :=
  match i with
  | .init p => Sys2Proof.Machine.execInit p s
  | .writeByte p => Sys2Proof.Machine.execWriteByte p s
  | .writeBuffer p => Sys2Proof.Machine.execWriteBuffer p s
  | .readByte p => Sys2Proof.Machine.execReadByte p s
  | .readBuffer p => Sys2Proof.Machine.execReadBuffer p s
  | .getStatus p => Sys2Proof.Machine.execGetStatus p s
  | .getWip p => Sys2Proof.Machine.execGetWip p s
  | .setWriteEnable p => Sys2Proof.Machine.execSetWriteEnable p s
  | .readIdPage p => Sys2Proof.Machine.execReadIdPage p s
  | .writeIdPage p => Sys2Proof.Machine.execWriteIdPage p s
  | .readLockStatus p => Sys2Proof.Machine.execReadLockStatus p s
  | .lockId p => Sys2Proof.Machine.execLockId p s
  | .writeDisable p => Sys2Proof.Machine.execWriteDisable p s
  | .writeStatus p => Sys2Proof.Machine.execWriteStatus p s
  | .wireWren => Sys2Proof.Machine.execWireWren s
  | .wireWrdi => Sys2Proof.Machine.execWireWrdi s
  | .wireRdsr => Sys2Proof.Machine.execWireRdsr s
  | .wireWrsr data => Sys2Proof.Machine.execWireWrsr data s
  | .wireRead addr n => Sys2Proof.Machine.execWireRead addr n s
  | .wireWrite addr data => Sys2Proof.Machine.execWireWrite addr data s
  | .wireReadId lo n => Sys2Proof.Machine.execWireReadId lo n s
  | .wireWriteId lo data => Sys2Proof.Machine.execWireWriteId lo data s
  | .wireReadLockStatus => Sys2Proof.Machine.execWireReadLockStatus s
  | .wireLockId data => Sys2Proof.Machine.execWireLockId data s

end Sys2Proof.Machine
end

