-- ==== Sys2Proof/Machine/Environment.lean ====
section
/-! DEFINITION. What the agents around the block do to the machine (R8): reset (R270 to R272), the host (R34, R78, R141),
other masters of the bus (R257), the chip's write cycle (R91). -/

namespace Sys2Proof.Machine

/-- What reset does to a frame in progress: `frame_active` falls after whatever was exchanged (R271). Whether the chip
acts on the cut frame is left open (U7): a free value, log entry 5. -/
def State.cutFrame (s : State) : State :=
  if s.frameActive then
    { s with
      trace := s.trace ++ [.frameEnd]
      chip :=
        if s.link.attached then
          (if Config.cutFrameTakesEffect s.draws then s.chip.frameEnd else s.chip.dropFrame)
        else s.chip
      draws := s.draws + 1 }
  else s

/-- Reset: every block register to 0, no response, nothing outside the block touched (R44, R270, R272). -/
def State.resetBlock (s : State) : State :=
  { s.cutFrame with
    phase := .idle
    idx   := 0
    lOp   := 0
    faddr := 0
    lLen  := 0
    lData := 0
    rData := 0
    rFlag := false
    rErr  := .noError }

/-- An event of the agenda; `turn` is the block's own move and changes nothing here. -/
def environment (e : Event) (s : State) : State :=
  match e with
  | .turn => s
  | .reset => s.resetBlock
  | .hostOffer cs => { s with cmd := cs }
  | .hostStore i v => { s with buf := s.buf.write i.toNat v }
  | .hostRegWrite n v => s.regWrite n v
  | .busRequest f => { s with bus := s.bus ++ [f] }
  | .writeCycleDone => { s with chip := s.chip.writeCycleDone }

end Sys2Proof.Machine
end

