-- ==== Sys2Proof/Machine/Fetch.lean ====
section
/-! DEFINITION. What the machine runs next. The block fetches nothing (R33): its "program" is the one command latched at
issue, and the next command is the one the host offers on the command port (R35). Another master's frame goes first
while no frame is open (R257; DESIGN CHOICE, log entry 9). -/

namespace Sys2Proof.Machine

/-- What stands where the machine looks for its next instruction. -/
inductive Fetched where
  /-- An instruction of the table. -/
  | instr (i : Instr)
  /-- The offered command has a reserved code (R120). -/
  | reserved (op : OpCode)
  /-- A waiting frame is no row of the table (R92, U12). -/
  | rawFrame (bytes : List Byte)
  /-- Nothing is offered: the block waits (R273). -/
  | nothing
  /-- The code latched for the command in progress is reserved: no run reaches this (R45). -/
  | unreachable
deriving DecidableEq, Repr

/-- The command in progress, read back from the latches: its code is L_OP, and its operands are used from the latches
alone (R23 to R26, R33; DEDUCED, log entry 11). -/
def State.latched (s : State) : Command :=
  { op := s.lOp, payload := { addr := s.faddr.setWidth 32, len := s.lLen, data := s.lData } }

/-- What the machine runs next. -/
def State.fetch (s : State) : Fetched :=
  match s.phase with
  | .idle =>
    match s.bus with
    | f :: _ =>
      match decodeFrame f with
      | .ok i => .instr i
      | .error _ => .rawFrame f
    | [] =>
      match s.cmd with
      | c :: _ =>
        match decodeCommand c with
        | .ok i => .instr i
        | .error _ => .reserved c.op
      | [] => .nothing
  | _ =>
    match decodeCommand s.latched with
    | .ok i => .instr i
    | .error _ => .unreachable

/-- Put an instruction where the machine looks next: the block idle, no other agent before it, the command word on the
command port or the frame at the head of the waiting frames. -/
def State.offer (s : State) (e : Encoded) : State :=
  match e with
  | .command w => { s with phase := .idle, agenda := [], bus := [], cmd := Command.ofWord w :: s.cmd }
  | .frame bytes => { s with phase := .idle, agenda := [], bus := bytes :: s.bus }

end Sys2Proof.Machine
end

