-- ==== Sys2Proof/Machine/Step.lean ====
section
/-! DEFINITION. One step. At the block's turn it is one action of the block: an issue, one transport call, or waiting
(R9, R140). Before that the agents around it act, one event of the agenda a step (R8). -/

namespace Sys2Proof.Machine

/-- The block's turn: run what is fetched. -/
def move (s : State) : Host.Outcome State Fault Refusal :=
  match s.fetch with
  | .instr i => exec i s
  | .reserved op => .next (s.issueReserved op)
  | .rawFrame bytes => .next (s.foreignFrame bytes)
  | .nothing => .next s
  | .unreachable => .fault .unreachablePosition

/-- One step of the machine. -/
def step (s : State) : Host.Outcome State Fault Refusal :=
  match s.agenda with
  | [] => move s
  | .turn :: es => move { s with agenda := es }
  | e :: es => .next (environment e { s with agenda := es })

/-- The instruction whose table word is `w`, stored where `step` fetches next. A program is loaded from outside: the
host offers its commands (log entry 8). -/
def State.withFetchWord (s : State) (nbits w : Nat) : State := s.offer (ofTableWord nbits w)

end Sys2Proof.Machine
end

