-- ==== Sys2Proof/Safety.lean ====
section
/-! DEFINITION. The terms claims use: the positions a run can reach (R45), the canonical memories, the discipline of the
wire trace (R74, R121), and what a whole command sends (R104, R152). -/

namespace Sys2Proof.Machine

/-! ### Positions -/

/-- L_LEN agrees with the row's nlen column (R25, R103). -/
def Descriptor.lengthFits (d : Descriptor) (n : Len) : Bool :=
  match d.nlen with
  | .fixed m => decide (n = m)
  | .cmdLen => true

/-- FADDR is a value the encoder gives for the row's address kind (R111 to R113). -/
def Descriptor.addrFits (d : Descriptor) (a : FrameAddr) : Bool :=
  match d.akind with
  | .main => true
  | .id => decide (a.extractLsb' 8 16 = 0)
  | .lock => decide (a = Config.lockAddr)
  | .noAddr => decide (a = 0)

/-- A framed command stands at a position its row allows: the address phases have an address field, a byte of the data
phase is still to come in DATA, and IDX is 0 before it (R22, R45). -/
def Descriptor.positionFits (d : Descriptor) (s : State) : Bool :=
  d.wop.isSome && d.lengthFits s.lLen && d.addrFits s.faddr &&
    match s.phase with
    | .idle => true
    | .tinit => true
    | .opc => decide (s.idx = 0)
    | .ahi => decide (s.idx = 0) && decide (d.akind ≠ .noAddr)
    | .amid => decide (s.idx = 0) && decide (d.akind ≠ .noAddr)
    | .alo => decide (s.idx = 0) && decide (d.akind ≠ .noAddr)
    | .data => decide (s.idx < s.lLen)

/-- The block's registers are at a position a run can reach. Stronger than R45, which follows from it; every step keeps
it. -/
def State.positioned (s : State) : Bool :=
  decide (s.idx ≤ s.lLen) &&
    match s.phase with
    | .idle => true
    | .tinit => decide (s.lOp = 0) && decide (s.idx = 0) && decide (s.rErr = .noError)
    | _ =>
      decide (s.rErr = .noError) &&
        match descriptor s.lOp with
        | none => false
        | some d => d.positionFits s

/-- The clauses of R45 that the state's types do not already say. -/
def State.inR45 (s : State) : Prop :=
  s.idx ≤ s.lLen ∧
  (s.phase = .data → s.idx < s.lLen ∧ 1 ≤ s.lLen) ∧
  (s.phase = .ahi ∨ s.phase = .amid ∨ s.phase = .alo →
    ∃ d, descriptor s.lOp = some d ∧ d.akind ≠ .noAddr) ∧
  (s.phase = .tinit → s.lOp = 0x0) ∧
  (s.phase ≠ .idle → s.rErr = .noError)

/-- The next step is the block's own move: no event of another agent stands before it. -/
def State.blockMoves (s : State) : Bool :=
  match s.agenda with
  | [] => true
  | e :: _ => decide (e = .turn)

/-- A step is a safe one when the machine goes on. -/
def State.goesOn (s : State) : Prop := ∃ t, step s = .next t

/-! ### Memories -/

/-- BUF, MEM and IDP are in canonical form and within their spaces (R60). -/
def State.memoriesFit (s : State) : Bool :=
  s.buf.wf && s.buf.below (2 ^ Config.lenW) && s.chip.mem.wf && s.chip.mem.below Config.capacity &&
    s.chip.idp.wf && s.chip.idp.below Config.idPageSize

/-! ### The wire trace -/

/-- Whether a frame is open after an event; none where the event cannot stand there: FrameBegin inside a frame, an
exchange or a FrameEnd outside one, a TInit inside one. -/
def openAfter : Option Bool → WireEvent → Option Bool
  | some false, .tInit => some false
  | some false, .frameBegin => some true
  | some true, .xchg _ _ _ => some true
  | some true, .frameEnd => some false
  | _, _ => none

/-- Whether a frame is open at the end of a trace; none for a trace that is no sequence of whole frames and TInit
events, the last frame perhaps still open. -/
def framing (t : List WireEvent) : Option Bool := t.foldl openAfter (some false)

/-- The bytes sent since the last FrameBegin. -/
def sentAfter : List Byte → WireEvent → List Byte
  | _, .frameBegin => []
  | bs, .xchg out _ _ => bs ++ [out]
  | bs, .tInit => bs
  | bs, .frameEnd => bs

/-- The bytes sent in the last frame of a trace. -/
def lastFrameBytes (t : List WireEvent) : List Byte := t.foldl sentAfter []

/-- The header of a command's frame: the wire opcode, then the three address bytes where the command has them
(R104). -/
def Descriptor.header (d : Descriptor) (w : Byte) (a : FrameAddr) : List Byte :=
  if d.akind = .noAddr then [w] else w :: addrBytes a

/-- What the open frame has sent is what the position says: the header as far as PHASE has come, and IDX data bytes
after the whole of it (R33, R104). -/
def State.headerSent (s : State) : Prop :=
  ∀ d w, descriptor s.lOp = some d → d.wop = some w →
    match s.phase with
    | .idle => True
    | .tinit => True
    | .opc => lastFrameBytes s.trace = []
    | .ahi => lastFrameBytes s.trace = [w]
    | .amid => lastFrameBytes s.trace = [w, addrHi s.faddr]
    | .alo => lastFrameBytes s.trace = [w, addrHi s.faddr, addrMid s.faddr]
    | .data =>
      (d.header w s.faddr) <+: lastFrameBytes s.trace ∧
        (lastFrameBytes s.trace).length = (d.header w s.faddr).length + s.idx.toNat

/-- While the responder is behind the port, what it has received of the open frame is what the block has sent of it
(R82). -/
def State.chipFollows (s : State) : Prop :=
  s.link.attached = true → s.frameActive = true → s.chip.rx = some (lastFrameBytes s.trace)

/-! ### Whole commands -/

/-- The data bytes a whole command sends when nothing changes BUF meanwhile (R116, R152). -/
def Descriptor.dataSent (d : Descriptor) (p : Payload) (buf : Memory) : List Byte :=
  let n := (d.length p.len).toNat
  match d.dir with
  | .noData => []
  | .read => List.replicate n Config.dummy
  | .write =>
    match d.src with
    | .noSrc => []
    | .lData => List.replicate n p.data
    | .buf => (List.range n).map buf.read
    | .const b => List.replicate n b

/-- The bytes of a whole command's frame (R104, R152). -/
def Descriptor.frameSent (d : Descriptor) (w : Byte) (p : Payload) (buf : Memory) : List Byte :=
  d.header w (encodeAddr d.akind p.addr) ++ d.dataSent p buf

/-- The exchanges of sent bytes with the transport's answers. -/
def exchanges (outs : List Byte) (answers : List Answer) : List WireEvent :=
  List.zipWith (fun out a => WireEvent.xchg out a.inp false) outs answers

/-! ### States named by what they hold -/

/-- The state after the issue of an accepted command with a frame (R142). -/
def State.issued (s : State) (op : OpCode) (faddr : FrameAddr) (n : Len) (data : Byte) : State :=
  { s with
    cmd := s.cmd.tail
    rErr := .noError
    rData := 0
    rFlag := false
    idx := 0
    lOp := op
    faddr := faddr
    lLen := n
    lData := data
    phase := .opc
    trace := s.trace ++ [.frameBegin]
    chip := if s.link.attached then s.chip.openFrame else s.chip }

/-- The state after a refused issue: nothing but the result latches, IDX, L_OP and the response (R246). -/
def State.refused (s : State) (op : OpCode) (e : ErrorCode) : State :=
  { s with
    cmd := s.cmd.tail
    rErr := e
    rData := 0
    rFlag := false
    idx := 0
    lOp := op
    responses := s.responses ++ [{ count := 0, data := 0, flag := false, err := e }] }

/-- The frame of a command has ended on a transport that is not the responder: PHASE is IDLE, FrameEnd stands in the
trace, and the response holds the latches (R148, R150). -/
def State.ended (s : State) : State :=
  { s with
    phase := .idle
    trace := s.trace ++ [.frameEnd]
    responses := s.responses ++ [{ count := s.idx, data := s.rData, flag := s.rFlag, err := s.rErr }] }

/-- The state after one exchange with a scripted transport, its failure mark with it. -/
def State.exchanged (s : State) (out : Byte) (a : Answer) (as : List Answer) (fail : Bool) : State :=
  { s with link := .scripted as, trace := s.trace ++ [.xchg out a.inp fail] }

/-- The transitions of PHASE, waiting and reset among them (R156, R270, R287). -/
def Phase.mayBecome (p q : Phase) : Bool :=
  decide (q = p) || decide (q = .idle) ||
    match p with
    | .idle => decide (q = .tinit) || decide (q = .opc)
    | .tinit => false
    | .opc => decide (q = .ahi) || decide (q = .data)
    | .ahi => decide (q = .amid)
    | .amid => decide (q = .alo)
    | .alo => decide (q = .data)
    | .data => false

/-- The row of the descriptor table a command instruction has, none for a wire frame. -/
def rowOf : Instr → Option Descriptor
  | .init _ => some rowInit
  | .writeByte _ => some rowWriteByte
  | .writeBuffer _ => some rowWriteBuffer
  | .readByte _ => some rowReadByte
  | .readBuffer _ => some rowReadBuffer
  | .getStatus _ => some rowGetStatus
  | .getWip _ => some rowGetWip
  | .setWriteEnable _ => some rowSetWriteEnable
  | .readIdPage _ => some rowReadIdPage
  | .writeIdPage _ => some rowWriteIdPage
  | .readLockStatus _ => some rowReadLockStatus
  | .lockId _ => some rowLockId
  | .writeDisable _ => some rowWriteDisable
  | .writeStatus _ => some rowWriteStatus
  | .wireWren => none
  | .wireWrdi => none
  | .wireRdsr => none
  | .wireWrsr _ => none
  | .wireRead _ _ => none
  | .wireWrite _ _ => none
  | .wireReadId _ _ => none
  | .wireWriteId _ _ => none
  | .wireReadLockStatus => none
  | .wireLockId _ => none

/-- The transport events of another master's frame: the bytes sent with the bytes answered. -/
def frameEvents (outs answers : List Byte) : List WireEvent :=
  [.frameBegin] ++ List.zipWith (fun out inp => WireEvent.xchg out inp false) outs answers ++ [.frameEnd]

end Sys2Proof.Machine
end

