-- ==== Sys2Proof/Certificates/Slice0/Obligations.lean ====
section
/-! DEFINITION. The statements for the provers. Each docstring names the rules of spec/ it formalises. -/

open Sys2Proof Sys2Proof.Machine

/-! ### Encodings -/

/-- Decoding an encoded instruction gives it back, every operand at every value (R100, R102, R104, R105). -/
def Obligations.DecodeInvertsEncode : Prop :=
  ∀ i : Instr, i.wellFormed = true → decode (encode i) = .ok i

/-- Whatever decodes is well formed and is the encoding of what it decodes to: no word has two readings, no bit is
ignored (R100, R102, R104, R105). -/
def Obligations.EncodeInvertsDecode : Prop :=
  ∀ (e : Encoded) (i : Instr), decode e = .ok i → i.wellFormed = true ∧ encode i = e

/-- Command words and frames written out in the spec's vectors decode to the instructions they stand for
(R100, R102, R105, file 95). -/
def Obligations.WordsOfTheSpecDecode : Prop :=
  decode (.command 0x12345AB1) = .ok (.writeByte ⟨0x12345, 0, 0xAB⟩) ∧
  decode (.command 0x4000000FC002) = .ok (.writeBuffer ⟨0xFC, 4, 0⟩) ∧
  decode (.command 0xA00000005009) = .ok (.writeIdPage ⟨5, 10, 0⟩) ∧
  decode (.command 0xFFD) = .ok (.writeStatus ⟨0, 0, 0xFF⟩) ∧
  decode (.command 0x7) = .ok (.setWriteEnable ⟨0, 0, 0⟩) ∧
  decode (.command 0x0) = .ok (.init ⟨0, 0, 0⟩) ∧
  decode (.command 0xE) = .error (.reservedCommand 0xE) ∧
  decode (.frame [0x02, 0x01, 0x23, 0x45, 0xAB]) = .ok (.wireWrite 0x012345 [0xAB]) ∧
  decode (.frame [0x83, 0x00, 0x04, 0x00, 0x00]) = .ok .wireReadLockStatus ∧
  decode (.frame [0x83, 0x00, 0x00, 0x05, 0x00, 0x00, 0x00]) = .ok (.wireReadId 0x05 3)

/-- The address-frame encoder: MAIN sends bits 23:0 of the operand, most significant byte first; ID sends (0, 0,
idAddress) with A10 = 0; LOCK sends (0x00, 0x04, 0x00) whatever the operand; the three bytes are the base-256 digits of
FADDR (R65, R111 to R114). -/
def Obligations.AddressFieldIsBigEndian : Prop :=
  (∀ addr : HostAddr,
    addrBytes (encodeAddr .main addr) =
      [addr.extractLsb' 16 8, addr.extractLsb' 8 8, addr.extractLsb' 0 8] ∧
    (encodeAddr .main addr).toNat = addr.toNat % 2 ^ 24 ∧
    addrBytes (encodeAddr .id addr) = [0x00, 0x00, addr.extractLsb' 0 8] ∧
    (encodeAddr .id addr).getLsbD 10 = false ∧
    addrBytes (encodeAddr .lock addr) = [0x00, 0x04, 0x00] ∧
    encodeAddr .noAddr addr = 0) ∧
  ∀ a : FrameAddr, a.toNat = 65536 * (addrHi a).toNat + 256 * (addrMid a).toNat + (addrLo a).toNat

/-! ### A step runs the decoded instruction -/

/-- At the block's turn a step is exec of the instruction that stands where the machine looks: the command offered to
an idle block, a waiting frame of another master, or the command in progress; with nothing there the block waits
(R33, R35, R140, R273; that a waiting frame goes first is the model's choice, log entry 9, and that the command in
progress is read back from the latches is log entry 11). -/
def Obligations.StepRunsTheDecodedInstruction : Prop :=
  (∀ (s : State) (c : Command) (cs : List Command) (i : Instr), s.agenda = [] → s.phase = .idle → s.bus = [] →
    s.cmd = c :: cs → decodeCommand c = .ok i → step s = exec i s) ∧
  (∀ (s : State) (f : List Byte) (fs : List (List Byte)) (i : Instr), s.agenda = [] → s.phase = .idle →
    s.bus = f :: fs → decodeFrame f = .ok i → step s = exec i s) ∧
  (∀ (s : State) (i : Instr), s.agenda = [] → s.phase ≠ .idle → decodeCommand s.latched = .ok i →
    step s = exec i s) ∧
  (∀ (s : State), s.agenda = [] → s.phase = .idle → s.bus = [] → s.cmd = [] → step s = .next s) ∧
  (∀ (s : State) (es : List Event), s.agenda = .turn :: es → step s = move { s with agenda := es }) ∧
  ∀ (s : State) (nbits w : Nat) (i : Instr), decodeTableWord nbits w = some i →
    step (s.withFetchWord nbits w) = exec i (s.withFetchWord nbits w)

/-! ### Issue -/

/-- INIT: its issue and its one step, on any transport that returns (R142, R144, R155). -/
def Obligations.InitCallsTheTransportOnce : Prop :=
  (∀ (p : Payload) (s : State), s.phase = .idle →
    exec (.init p) s = .next
      { s with cmd := s.cmd.tail, rErr := .noError, rData := 0, rFlag := false, idx := 0, lOp := 0x0, faddr := 0,
               lLen := 0, lData := p.data, phase := .tinit }) ∧
  ∀ (p : Payload) (s : State) (a : Answer) (as : List Answer), s.phase = .tinit → s.lOp = 0x0 →
    s.link = .scripted (a :: as) →
    exec (.init p) s = .next
      { s with phase := .idle, link := .scripted as, trace := s.trace ++ [.tInit],
               responses := s.responses ++ [⟨s.idx, s.rData, s.rFlag, s.rErr⟩] }

/-- The four main-array commands are issued whenever their checks pass or CHECK_EN = 0 (R101, R103, R111, R142,
R180 to R184). -/
def Obligations.MainArrayCommandsAreIssued : Prop :=
  ∀ (p : Payload) (s : State), s.phase = .idle → (s.cfg.checkEn = true → p.addr.toNat < 0x40000) →
    exec (.writeByte p) s = .next (s.issued 0x1 (p.addr.extractLsb' 0 24) 1 p.data) ∧
    exec (.readByte p) s = .next (s.issued 0x3 (p.addr.extractLsb' 0 24) 1 p.data) ∧
    exec (.readBuffer p) s = .next (s.issued 0x4 (p.addr.extractLsb' 0 24) p.len p.data) ∧
    ((s.cfg.checkEn = true → (p.addr.extractLsb' 0 8).toNat + p.len.toNat ≤ 256) →
      exec (.writeBuffer p) s = .next (s.issued 0x2 (p.addr.extractLsb' 0 24) p.len p.data))

/-- The five status and latch commands are issued by any idle block, whatever the operands (R101, R103, R142, R200 to
R205). -/
def Obligations.StatusCommandsAreIssued : Prop :=
  ∀ (p : Payload) (s : State), s.phase = .idle →
    exec (.getStatus p) s = .next (s.issued 0x5 0 1 p.data) ∧
    exec (.getWip p) s = .next (s.issued 0x6 0 1 p.data) ∧
    exec (.setWriteEnable p) s = .next (s.issued 0x7 0 0 p.data) ∧
    exec (.writeDisable p) s = .next (s.issued 0xC 0 0 p.data) ∧
    exec (.writeStatus p) s = .next (s.issued 0xD 0 1 p.data)

/-- The two lock commands are issued by any idle block; the two ID-page commands whenever their checks pass or
CHECK_EN = 0 (R101, R103, R112, R113, R142, R220 to R224). -/
def Obligations.IdAndLockCommandsAreIssued : Prop :=
  ∀ (p : Payload) (s : State), s.phase = .idle →
    exec (.readLockStatus p) s = .next (s.issued 0xA 0x000400 1 p.data) ∧
    exec (.lockId p) s = .next (s.issued 0xB 0x000400 1 p.data) ∧
    ((s.cfg.checkEn = true → p.addr.toNat < 0x100) →
      exec (.readIdPage p) s =
        .next (s.issued 0x8 ((0 : BitVec 16) ++ p.addr.extractLsb' 0 8) p.len p.data)) ∧
    ((s.cfg.checkEn = true → p.addr.toNat < 0x100 ∧ (p.addr.extractLsb' 0 8).toNat + p.len.toNat ≤ 256) →
      exec (.writeIdPage p) s =
        .next (s.issued 0x9 ((0 : BitVec 16) ++ p.addr.extractLsb' 0 8) p.len p.data))

/-- AddressOutOfRange is raised at issue exactly when CHECK_EN = 1 and a MAIN command's operand is at least 0x40000 or
an ID command's at least 0x100 (R241). -/
def Obligations.AddressOutOfRangeExactlyWhen : Prop :=
  ∀ (s t : State) (c : Command) (i : Instr), s.phase = .idle → decodeCommand c = .ok i → exec i s = .next t →
    (t.rErr = .addressOutOfRange ↔
      s.cfg.checkEn = true ∧
        ((c.op ∈ [0x1, 0x2, 0x3, 0x4] ∧ 0x40000 ≤ c.payload.addr.toNat) ∨
          (c.op ∈ [0x8, 0x9] ∧ 0x100 ≤ c.payload.addr.toNat)))

/-- PageBoundaryCrossed is raised at issue exactly when CHECK_EN = 1, the command is WRITE_BUFFER or WRITE_ID_PAGE, the
range check has passed, and the exact sum of the low address byte and the length exceeds 256 (R242, R245). -/
def Obligations.PageBoundaryCrossedExactlyWhen : Prop :=
  ∀ (s t : State) (c : Command) (i : Instr), s.phase = .idle → decodeCommand c = .ok i → exec i s = .next t →
    (t.rErr = .pageBoundaryCrossed ↔
      s.cfg.checkEn = true ∧
        ((c.op = 0x2 ∧ c.payload.addr.toNat < 0x40000) ∨ (c.op = 0x9 ∧ c.payload.addr.toNat < 0x100)) ∧
        256 < (c.payload.addr.extractLsb' 0 8).toNat + c.payload.len.toNat)

/-- cmd_op 0xE and 0xF raise IllegalCommand at issue, whatever CHECK_EN is and whatever the operands are (R243). -/
def Obligations.ReservedCodesRaiseIllegalCommand : Prop :=
  ∀ (s : State) (c : Command) (cs : List Command), s.agenda = [] → s.phase = .idle → s.bus = [] →
    s.cmd = c :: cs → (c.op = 0xE ∨ c.op = 0xF) → step s = .next (s.refused c.op .illegalCommand)

/-- An issue that raises an error changes the result latches, IDX and L_OP, completes with count 0, and has no other
effect: nothing is sent, BUF, FADDR, L_LEN and L_DATA keep their values (R246). -/
def Obligations.IssueErrorIsPrecise : Prop :=
  ∀ (s t : State) (c : Command) (cs : List Command), s.agenda = [] → s.phase = .idle → s.bus = [] →
    s.cmd = c :: cs → step s = .next t → t.rErr ≠ .noError → t = s.refused c.op t.rErr

/-- The issue of an accepted command gives a state that does not depend on what any register held before (R20). -/
def Obligations.IssueForgetsEarlierCommands : Prop :=
  ∀ (s t : State) (c : Command) (i : Instr) (idx' lLen' : Len) (lOp' : OpCode) (faddr' : FrameAddr)
    (lData' rData' : Byte) (rFlag' : Bool) (rErr' : ErrorCode), s.phase = .idle → decodeCommand c = .ok i →
    exec i s = .next t → t.phase ≠ .idle →
    exec i { s with idx := idx', lLen := lLen', lOp := lOp', faddr := faddr', lData := lData', rData := rData',
                    rFlag := rFlag', rErr := rErr' } = .next t

/-- While a command is in progress an offered command has no effect on anything and stays offered, and a command other
than the one in progress does nothing (R141). -/
def Obligations.BusyBlockAcceptsNothing : Prop :=
  (∀ (s t : State) (cs : List Command), s.agenda = [] → s.phase ≠ .idle → step s = .next t →
    t.cmd = s.cmd ∧ step { s with cmd := cs } = .next { t with cmd := cs }) ∧
  ∀ (s : State) (c : Command) (i : Instr), s.phase ≠ .idle → decodeCommand c = .ok i → c.op ≠ s.lOp →
    exec i s = .next s

/-! ### The steps of a frame -/

/-- The OPC, AHI, AMID and ALO steps: the opcode, then the three address bytes, the byte received discarded; where the
frame goes on or ends (R145, R146, R147). -/
def Obligations.HeaderStepsFollowTheFrame : Prop :=
  ∀ (s : State) (d : Descriptor) (w : Byte) (a : Answer) (as : List Answer), s.agenda = [] →
    descriptor s.lOp = some d → d.wop = some w → s.link = .scripted (a :: as) → a.fail = false →
    (s.phase = .opc → step s = .next
      (if d.akind ≠ .noAddr then { s.exchanged w a as false with phase := .ahi }
       else if s.lLen = 0 then (s.exchanged w a as false).ended
       else { s.exchanged w a as false with phase := .data })) ∧
    (s.phase = .ahi → step s = .next { s.exchanged (s.faddr.extractLsb' 16 8) a as false with phase := .amid }) ∧
    (s.phase = .amid → step s = .next { s.exchanged (s.faddr.extractLsb' 8 8) a as false with phase := .alo }) ∧
    (s.phase = .alo → step s = .next
      (if s.lLen = 0 then (s.exchanged (s.faddr.extractLsb' 0 8) a as false).ended
       else { s.exchanged (s.faddr.extractLsb' 0 8) a as false with phase := .data }))

/-- SET_WRITE_ENABLE and WRITE_DISABLE complete with the exchange of their one byte, 0x06 or 0x04 (R202, R203). -/
def Obligations.DatalessCommandsComplete : Prop :=
  ∀ (p : Payload) (s : State) (a : Answer) (as : List Answer), s.phase = .opc → s.lLen = 0 →
    s.link = .scripted (a :: as) → a.fail = false →
    (s.lOp = 0x7 → exec (.setWriteEnable p) s = .next (s.exchanged 0x06 a as false).ended) ∧
    (s.lOp = 0xC → exec (.writeDisable p) s = .next (s.exchanged 0x04 a as false).ended)

/-- The one-byte reads complete with the dummy exchange: R_DATA is the byte received, verbatim; GET_WIP sets R_FLAG to
its bit 0; READ_LOCK_STATUS also stores it to BUF[0] (R182, R200, R201, R222). -/
def Obligations.OneByteReadsComplete : Prop :=
  ∀ (p : Payload) (s : State) (a : Answer) (as : List Answer), s.phase = .data → s.idx = 0 → s.lLen = 1 →
    s.link = .scripted (a :: as) → a.fail = false →
    (s.lOp = 0x3 → exec (.readByte p) s = .next
      ({ s.exchanged 0x00 a as false with idx := 1, rData := a.inp } : State).ended) ∧
    (s.lOp = 0x5 → exec (.getStatus p) s = .next
      ({ s.exchanged 0x00 a as false with idx := 1, rData := a.inp } : State).ended) ∧
    (s.lOp = 0x6 → exec (.getWip p) s = .next
      ({ s.exchanged 0x00 a as false with idx := 1, rData := a.inp, rFlag := a.inp.getLsbD 0 } : State).ended) ∧
    (s.lOp = 0xA → exec (.readLockStatus p) s = .next
      ({ s.exchanged 0x00 a as false with
          idx := 1, rData := a.inp, buf := s.buf.write 0 a.inp, bufLog := s.bufLog ++ [.write 0 a.inp] } : State).ended)

/-- The one-byte writes complete with the exchange of their byte: L_DATA for WRITE_BYTE and WRITE_STATUS, the constant
0x02 for LOCK_ID; the byte received is dropped and BUF is not accessed (R180, R204, R223). -/
def Obligations.OneByteWritesComplete : Prop :=
  ∀ (p : Payload) (s : State) (a : Answer) (as : List Answer), s.phase = .data → s.idx = 0 → s.lLen = 1 →
    s.link = .scripted (a :: as) → a.fail = false →
    (s.lOp = 0x1 → exec (.writeByte p) s = .next
      ({ s.exchanged s.lData a as false with idx := 1 } : State).ended) ∧
    (s.lOp = 0xD → exec (.writeStatus p) s = .next
      ({ s.exchanged s.lData a as false with idx := 1 } : State).ended) ∧
    (s.lOp = 0xB → exec (.lockId p) s = .next
      ({ s.exchanged 0x02 a as false with idx := 1 } : State).ended)

/-- The read streams: each DATA step sends the dummy and stores the byte received to BUF[IDX]; the last one ends the
frame (R148, R183, R220). -/
def Obligations.BufferReadsStoreEachByte : Prop :=
  ∀ (p : Payload) (s : State) (a : Answer) (as : List Answer) (i : Instr), s.phase = .data →
    s.link = .scripted (a :: as) → a.fail = false →
    (i = .readBuffer p ∧ s.lOp = 0x4) ∨ (i = .readIdPage p ∧ s.lOp = 0x8) →
    exec i s = .next
      (let t : State :=
        { s.exchanged 0x00 a as false with
          idx := s.idx + 1
          buf := s.buf.write s.idx.toNat a.inp
          bufLog := s.bufLog ++ [.write s.idx a.inp] }
       if s.idx + 1 = s.lLen then t.ended else t)

/-- The write streams: each DATA step sends BUF[IDX] as it is in that step; the byte received is dropped; the last one
ends the frame (R78, R148, R181, R221). -/
def Obligations.BufferWritesSendEachByte : Prop :=
  ∀ (p : Payload) (s : State) (a : Answer) (as : List Answer) (i : Instr), s.phase = .data →
    s.link = .scripted (a :: as) → a.fail = false →
    (i = .writeBuffer p ∧ s.lOp = 0x2) ∨ (i = .writeIdPage p ∧ s.lOp = 0x9) →
    exec i s = .next
      (let t : State :=
        { s.exchanged (s.buf.read s.idx.toNat) a as false with
          idx := s.idx + 1
          bufLog := s.bufLog ++ [.read s.idx] }
       if s.idx + 1 = s.lLen then t.ended else t)

/-- A failed exchange, in any phase of a frame: R_ERR is TransportFailure, the byte received is not used, IDX is not
incremented, the frame ends and the command completes; the exchange stands in the trace with its mark. With
T_CAN_FAIL = 0 the failure bit is tied to 0 (R151). -/
def Obligations.FailedExchangeEndsTheFrame : Prop :=
  ∀ (s : State) (d : Descriptor) (out : Byte) (a : Answer) (as : List Answer), s.agenda = [] →
    descriptor s.lOp = some d → s.tOut = some out → s.link = .scripted (a :: as) → a.fail = true →
    (s.cfg.tCanFail = true → step s = .next
      ({ s.exchanged out a as true with
          rErr := .transportFailure
          bufLog :=
            if s.phase = .data ∧ d.dir = .write ∧ d.src = .buf then s.bufLog ++ [.read s.idx]
            else s.bufLog } : State).ended) ∧
    (s.cfg.tCanFail = false → step s = step { s with link := .scripted ({ a with fail := false } :: as) })

/-- A transport that never answers leaves the block in its phase for ever, not ready and with no response; nothing
another agent does changes that but reset, which recovers it (R287). -/
def Obligations.SilentTransportHangsTheBlock : Prop :=
  ∀ s : State, s.positioned = true → s.phase ≠ .idle → s.agenda = [] → s.link = .scripted [] →
    (∀ n, core.run n s = .next s) ∧ s.cmdReady = false ∧
    (∀ e : Event, e ≠ .reset → ∃ t, step { s with agenda := [e] } = .next t ∧
      t.phase = s.phase ∧ t.cmdReady = false ∧ t.responses = s.responses) ∧
    ∃ t, step { s with agenda := [.reset] } = .next t ∧ t.cmdReady = true

/-- What a step sends is the byte the block presents, which no answer can change; and the byte received in an opcode or
address step, or in a data step that is no read, reaches nothing but the trace (R149; R153, which the spec marks as
derived). -/
def Obligations.SentBytesIgnoreReceivedBytes : Prop :=
  (∀ (s t : State) (out : Byte) (a : Answer) (as : List Answer), s.agenda = [] → s.link = .scripted (a :: as) →
    s.tOut = some out → step s = .next t →
    ∃ l, t.trace = s.trace ++ .xchg out a.inp (a.fail && s.cfg.tCanFail) :: l) ∧
  ∀ (s t : State) (d : Descriptor) (a : Answer) (as : List Answer) (inp' : Byte), s.agenda = [] →
    descriptor s.lOp = some d → s.phase ≠ .idle → (s.phase = .data → d.dir ≠ .read) →
    s.link = .scripted (a :: as) → step s = .next t →
    ∃ tr, step { s with link := .scripted ({ a with inp := inp' } :: as) } = .next { t with trace := tr }

/-- The responder is one transport among all: a step with it is, for the block's registers, BUF, the trace, the
responses and the ports, the step with the answer it gives (R80; the list of answers as the form of a transport is the
model's, log entry 15). -/
def Obligations.ResponderIsOneTransport : Prop :=
  ∀ (s t : State) (fs : List Bool), s.agenda = [] → s.phase ≠ .idle → s.link = .responder fs → step s = .next t →
    ∃ (a : Answer) (l : Link) (c : Chip) (k : Nat) (u : State),
      step { s with link := .scripted [a] } = .next u ∧ t = { u with link := l, chip := c, draws := k }

/-! ### Whole commands -/

/-- A command that passes its checks, on a transport that answers and never fails, sends exactly its frame: the opcode,
the address bytes where it has them, and its data bytes in order; its sinks get the bytes received; it returns its
length (R152, R154, which the spec derives from R142 to R151). -/
def Obligations.WholeCommandSendsItsFrame : Prop :=
  ∀ (s : State) (c : Command) (cs : List Command) (d : Descriptor) (w : Byte) (head body more : List Answer),
    s.agenda = [] → s.bus = [] → s.phase = .idle → s.cmd = c :: cs → s.buf.wf = true →
    descriptor c.op = some d → d.wop = some w → d.issueError s.cfg.checkEn c.payload = none →
    s.link = .scripted (head ++ body ++ more) → (∀ a ∈ head ++ body, a.fail = false) →
    head.length = (d.header w (encodeAddr d.akind c.payload.addr)).length →
    body.length = (d.length c.payload.len).toNat →
    ∃ t, core.run (1 + head.length + body.length) s = .next t ∧
      t.trace = s.trace ++ [.frameBegin] ++ exchanges (d.frameSent w c.payload s.buf) (head ++ body) ++
        [.frameEnd] ∧
      t.phase = .idle ∧ t.idx = d.length c.payload.len ∧ t.rErr = .noError ∧ t.cmd = cs ∧
      t.link = .scripted more ∧
      t.rData = (if d.latchesRData then (body.getLast?.map Answer.inp).getD 0 else 0) ∧
      t.rFlag = (if d.latchesRFlag then ((body.getLast?.map Answer.inp).getD 0).getLsbD 0 else false) ∧
      t.responses = s.responses ++ [⟨t.idx, t.rData, t.rFlag, .noError⟩] ∧
      (d.sink = .buf →
        ∀ a, t.buf.read a = (body[a]?.map Answer.inp).getD (s.buf.read a)) ∧
      (d.sink = .bufZeroAndRData → ∀ a, t.buf.read a = if a = 0 then t.rData else s.buf.read a) ∧
      (d.sink ≠ .buf → d.sink ≠ .bufZeroAndRData → t.buf = s.buf)

/-- Every accepted command takes a finite number of steps: one for INIT, and one for each byte of its frame otherwise,
with the responder answering (R106, R158, which the spec marks as derived). -/
def Obligations.AcceptedCommandsTerminate : Prop :=
  ∀ (s : State) (c : Command) (cs : List Command) (d : Descriptor), s.agenda = [] → s.bus = [] →
    s.phase = .idle → s.cmd = c :: cs → descriptor c.op = some d →
    d.issueError s.cfg.checkEn c.payload = none → s.link = .responder [] →
    ∃ t, core.run
        (1 + (if c.op = 0x0 then 1
              else 1 + (if d.akind = .noAddr then 0 else 3) + (d.length c.payload.len).toNat)) s = .next t ∧
      t.phase = .idle ∧ t.idx = d.length c.payload.len ∧ t.rErr = .noError ∧
      t.responses.length = s.responses.length + 1

/-! ### Whole-machine rules -/

/-- Every step keeps the block at a position its command allows (R22, R33, R45, which the spec marks as derived; the
invariant is the model's strengthening of R45, log entry 14). -/
def Obligations.StepKeepsPositioned : Prop :=
  ∀ s t : State, s.positioned = true → step s = .next t → t.positioned = true

/-- A positioned machine never stops: a step always gives a next state (R13, R45; the one fault, log entry 14, stands
outside the invariant). -/
def Obligations.PositionedMachineGoesOn : Prop :=
  ∀ s : State, s.positioned = true → s.goesOn

/-- In every state reached from a block at its reset position, whatever the agents around it do: IDX ≤ L_LEN; in DATA
IDX < L_LEN and L_LEN ≥ 1; the address phases belong to a command with an address field; TINIT to INIT; and a busy
block has R_ERR = 0 (R45, which the spec marks as derived; PHASE ≤ 6 and R_ERR ≤ 4 are in the types). -/
def Obligations.ReachableStatesMeetR45 : Prop :=
  ∀ (s t : State) (n : Nat), s.phase = .idle → s.idx = 0 → core.run n s = .next t → t.inR45

/-- PHASE moves only along the relation (R156, which the spec marks as derived; a step that only waits, R287, keeps
it). -/
def Obligations.PhaseMovesAlongTheRelation : Prop :=
  ∀ s t : State, s.positioned = true → step s = .next t → s.phase.mayBecome t.phase = true

/-- Every step keeps BUF, MEM and IDP in canonical form and within their spaces (R60; the form is the model's, log
entry 2). -/
def Obligations.StepKeepsMemoriesFit : Prop :=
  ∀ s t : State, s.memoriesFit = true → step s = .next t → t.memoriesFit = true

/-- The wire trace stays a sequence of whole frames and TInit events, a frame open exactly while `frame_active` is 1:
no operation interleaves commands (R40, R74). -/
def Obligations.TraceIsWholeFrames : Prop :=
  ∀ s t : State, framing s.trace = some s.frameActive → step s = .next t → framing t.trace = some t.frameActive

/-- The open frame has sent its opcode first, then its address bytes in order, then IDX data bytes (R2, R33, R104). -/
def Obligations.HeaderIsSentFirst : Prop :=
  ∀ s t : State, s.positioned = true → s.headerSent → step s = .next t → t.headerSent

/-- With the responder behind the port, every step keeps what it has received of the open frame equal to what the
block has sent of it (R82). -/
def Obligations.ChipReceivesTheFrame : Prop :=
  ∀ s t : State, s.chipFollows → step s = .next t → t.chipFollows

/-- No command but WRITE_BYTE and WRITE_BUFFER changes a byte of MAIN, and no command but WRITE_ID_PAGE changes a byte
of the ID page, in any step while it is in progress, a failure and a reset that cuts its frame among them (R62, R73, R87,
R93; that a frame acts at its end is marked as general knowledge in R82, log entry 12; what a failed exchange's byte and
a cut frame do are free values, R271, U7, log entries 4 and 5). -/
def Obligations.CommandsKeepToTheirArray : Prop :=
  ∀ s t : State, s.positioned = true → s.headerSent → s.chipFollows → s.phase ≠ .idle → step s = .next t →
    (s.lOp ≠ 0x1 → s.lOp ≠ 0x2 → t.chip.mem = s.chip.mem) ∧ (s.lOp ≠ 0x9 → t.chip.idp = s.chip.idp)

/-- The reset state meets the invariants (R44, R45). -/
def Obligations.ResetMeetsTheInvariants : Prop :=
  State.reset.positioned = true ∧ State.reset.memoriesFit = true ∧
    framing State.reset.trace = some State.reset.frameActive ∧ State.reset.headerSent ∧ State.reset.chipFollows

/-- A response event occurs exactly when a command completes, at the end of its last step, in its failure step or at a
refused issue, and holds the result latches. No step that leaves a command in progress, no event of another agent, no
frame of another master and no waiting of an idle block makes one (R36, R150, R273; an event of another agent and a
waiting frame as steps of their own are log entries 9 and 13). -/
def Obligations.OneResponsePerCompletion : Prop :=
  ∀ s t : State, step s = .next t →
    (t.phase ≠ .idle → t.responses = s.responses) ∧
    (s.blockMoves = false → t.responses = s.responses) ∧
    (s.blockMoves = true → s.phase ≠ .idle → t.phase = .idle →
      t.responses = s.responses ++ [⟨t.idx, t.rData, t.rFlag, t.rErr⟩]) ∧
    (s.blockMoves = true → s.phase = .idle → s.bus = [] → s.cmd ≠ [] → t.phase = .idle →
      t.rErr ≠ .noError ∧ t.responses = s.responses ++ [⟨0, 0, false, t.rErr⟩]) ∧
    (s.blockMoves = true → s.phase = .idle → (s.bus ≠ [] ∨ s.cmd = []) → t.responses = s.responses)

/-- With CHECK_EN = 0 and T_CAN_FAIL = 0 no step raises an error unless the offered command has a reserved code
(R251, which the spec marks as derived). -/
def Obligations.ReferenceModeNeverFails : Prop :=
  ∀ s t : State, s.cfg = ⟨false, false⟩ → s.rErr = .noError → (∀ c ∈ s.cmd, c.op ≠ 0xE ∧ c.op ≠ 0xF) →
    step s = .next t → t.rErr = .noError

/-- The lock latch is one-way: no step of anyone clears it (R43, R81, R89). -/
def Obligations.LockIsIrreversible : Prop :=
  ∀ s t : State, s.chip.locked = true → step s = .next t → t.chip.locked = true

/-- Once the ID page is locked no step of anyone changes a byte of it (R88, R93). -/
def Obligations.LockedIdPageNeverChanges : Prop :=
  ∀ s t : State, s.chip.locked = true → step s = .next t → t.chip.idp = s.chip.idp

/-- While WIP = 1 nothing but `write_cycle_done` changes the chip's arrays, its status register or its lock (R84,
R91; the spec marks R84 as general knowledge of the part). -/
def Obligations.WriteCycleShieldsTheChip : Prop :=
  ∀ s t : State, s.chip.wip = true → step s = .next t → (∀ es, s.agenda ≠ .writeCycleDone :: es) →
    t.chip.mem = s.chip.mem ∧ t.chip.idp = s.chip.idp ∧ t.chip.sr = s.chip.sr ∧ t.chip.locked = s.chip.locked

/-- What a command leaves unchanged when exec gives a next state: the parameters, the other agents' inputs, the other
masters' trace, BUF but for the byte its data step stores, the operand latches once it is in progress, and the result
latches it does not write. A command that reads leaves the chip's arrays, status register and lock, also in the step
that ends its frame (R27, R28, R32, R73, R87, R88, R143; that a frame acts at its end is marked as general knowledge in
R82, log entry 12). -/
def Obligations.CommandFrame : Prop :=
  ∀ (i : Instr) (d : Descriptor) (s t : State), rowOf i = some d → exec i s = .next t →
    (t.cfg = s.cfg ∧ t.agenda = s.agenda ∧ t.bus = s.bus ∧ t.busTrace = s.busTrace) ∧
    (∀ a : Nat, (s.phase = .data → s.lOp = d.op → ∀ k, d.storeIndex s = some k → a ≠ k.toNat) →
      t.buf.read a = s.buf.read a) ∧
    (s.phase ≠ .idle →
      t.lOp = s.lOp ∧ t.faddr = s.faddr ∧ t.lLen = s.lLen ∧ t.lData = s.lData ∧ t.cmd = s.cmd ∧
      (s.phase ≠ .data → t.idx = s.idx) ∧ (t.rErr = s.rErr ∨ t.rErr = .transportFailure) ∧
      (d.latchesRData = false → t.rData = s.rData) ∧ (d.latchesRFlag = false → t.rFlag = s.rFlag)) ∧
    (s.link.attached = false → t.chip = s.chip ∧ t.draws = s.draws) ∧
    (t.frameActive = true →
      t.chip.mem = s.chip.mem ∧ t.chip.idp = s.chip.idp ∧ t.chip.sr = s.chip.sr ∧
        t.chip.locked = s.chip.locked) ∧
    (d.dir = .read → s.positioned = true → s.headerSent → s.chipFollows →
      t.chip.mem = s.chip.mem ∧ t.chip.idp = s.chip.idp ∧ t.chip.sr = s.chip.sr ∧
        t.chip.locked = s.chip.locked)

/-- Reset puts every block register to its reset value, cuts an open frame with a FrameEnd, produces no response and no
TInit, and leaves the host, BUF, the transport and, where no frame is cut, the chip alone, whatever else was about to
happen (R270, R271, R272). That a cut frame takes effect in the chip as far as it goes or has none is U7's, and the
choice between the two the model's, a free value, log entry 5. -/
def Obligations.ResetClearsTheBlock : Prop :=
  ∀ (s : State) (es : List Event), s.agenda = .reset :: es →
    ∃ t, step s = .next t ∧
      (t.phase = .idle ∧ t.idx = 0 ∧ t.lOp = 0 ∧ t.faddr = 0 ∧ t.lLen = 0 ∧ t.lData = 0 ∧ t.rData = 0 ∧
        t.rFlag = false ∧ t.rErr = .noError ∧ t.cmdReady = true ∧ t.frameActive = false) ∧
      t.responses = s.responses ∧ t.buf = s.buf ∧ t.cmd = s.cmd ∧ t.link = s.link ∧ t.agenda = es ∧
      t.cfg = s.cfg ∧ t.bufLog = s.bufLog ∧ t.bus = s.bus ∧ t.busTrace = s.busTrace ∧
      t.trace = s.trace ++ (if s.frameActive then [.frameEnd] else []) ∧
      (s.frameActive = false ∨ s.link.attached = false → t.chip = s.chip) ∧
      (s.frameActive = true → s.link.attached = true → t.chip = s.chip.frameEnd ∨ t.chip = s.chip.dropFrame)

/-- After reset every block register is 0 and the block is ready, with no frame open and nothing asked of the transport
or of BUF; reset leaves BUF as it is, and the chip where it cuts no frame (R44). -/
def Obligations.ResetState : Prop :=
  State.reset.phase.code = 0 ∧ State.reset.idx = 0 ∧ State.reset.lOp = 0 ∧ State.reset.faddr = 0x000000 ∧
    State.reset.lLen = 0 ∧ State.reset.lData = 0x00 ∧ State.reset.rData = 0x00 ∧ State.reset.rFlag = false ∧
    State.reset.rErr.code = 0 ∧ State.reset.cmdReady = true ∧ State.reset.responses = [] ∧
    State.reset.tReq = false ∧ State.reset.tInit = false ∧ State.reset.frameActive = false ∧
    State.reset.bufLog = [] ∧ (∀ n : Fin 8, State.reset.reg n = 0) ∧
    ∀ s : State, (environment .reset s).buf = s.buf ∧
      (s.frameActive = false → (environment .reset s).chip = s.chip)

/-- The derived signals (R30). -/
def Obligations.DerivedSignals : Prop :=
  ∀ s : State,
    (s.busy = true ↔ s.phase ≠ .idle) ∧ (s.cmdReady = true ↔ s.phase = .idle) ∧
    (s.frameActive = true ↔ s.phase ∈ [.opc, .ahi, .amid, .alo, .data]) ∧ (s.errf = true ↔ s.rErr ≠ .noError)

/-- The eight registers the host reads, field by field, and a host's write to any of them (R34). -/
def Obligations.HostRegisters : Prop :=
  (∀ s : State,
    (s.reg 0).toNat = s.busy.toNat + 2 * s.errf.toNat + 4 * s.rFlag.toNat + 8 * s.frameActive.toNat +
      16 * s.phase.code.toNat ∧
    (s.reg 1).toNat = s.rErr.code.toNat ∧ (s.reg 2).toNat = s.idx.toNat ∧ (s.reg 3).toNat = s.rData.toNat ∧
    (s.reg 4).toNat = s.lOp.toNat ∧ (s.reg 5).toNat = s.faddr.toNat ∧ (s.reg 6).toNat = s.lLen.toNat ∧
    (s.reg 7).toNat = s.lData.toNat) ∧
  ∀ (s : State) (n : Fin 8) (v : BitVec 32) (es : List Event), s.agenda = .hostRegWrite n v :: es →
    step s = .next { s with agenda := es }

/-- A host store changes the one byte of BUF it names and nothing else; BUF is not copied, so a stream reads it as it
is then (R78; for a BUF in the model's canonical form, log entry 2). -/
def Obligations.HostStoreChangesOneByte : Prop :=
  ∀ (s : State) (i : Len) (v : Byte) (es : List Event), s.buf.wf = true → s.agenda = .hostStore i v :: es →
    ∃ m, step s = .next { s with agenda := es, buf := m } ∧
      ∀ a, m.read a = if a = i.toNat then v else s.buf.read a

/-! ### The chip behind the transport -/

/-- What another master's frame leaves unchanged, and that it is sent at all: the block's registers, the host and the
block's trace stay, the frame leaves the waiting list, and MEM and IDP change at most where the frame's data bytes go.
While `frame_active` is 1 it waits (R62, R86, R88, R283; that a wire instruction is a whole frame of another master is
the model's choice, log entry 12). -/
def Obligations.WireFrame : Prop :=
  ∀ (i : Instr) (bytes : List Byte) (s : State), encode i = .frame bytes →
    (s.frameActive = true → exec i s = .next s) ∧
    (s.frameActive = false → ∃ (c : Chip) (tr : List WireEvent),
      exec i s = .next { s with chip := c, bus := s.bus.tail, draws := s.draws + bytes.length, busTrace := tr } ∧
      c.rx = none ∧
      (∀ a : Nat, (∀ (addr : FrameAddr) (ds : List Byte), i = .wireWrite addr ds → ∀ k, k < ds.length →
          a ≠ mainWriteAddr addr k) → c.mem.read a = s.chip.mem.read a) ∧
      (∀ a : Nat, (∀ (lo : Byte) (ds : List Byte), i = .wireWriteId lo ds → ∀ k, k < ds.length →
          a ≠ idWriteAddr (addrOfBytes 0x00 0x00 lo) k) → c.idp.read a = s.chip.idp.read a) ∧
      ((∀ d, i ≠ .wireLockId d) → c.locked = s.chip.locked))

/-- WREN sets WEL and WRDI clears it, with WIP = 0; during a write cycle neither does anything (R84, R85, rules of the
reference responder the spec marks in part as general knowledge, log entry 12; that they do so also with SRWD, BP1 or
BP0 set is the model's choice, log entry 24). -/
def Obligations.WrenAndWrdiMoveTheLatch : Prop :=
  ∀ s : State, s.frameActive = false →
    (∃ t, exec .wireWren s = .next t ∧
      t.chip = { s.chip with rx := none, sr := if s.chip.wip then s.chip.sr else s.chip.sr ||| 0x02 }) ∧
    (∃ t, exec .wireWrdi s = .next t ∧
      t.chip = { s.chip with rx := none, sr := if s.chip.wip then s.chip.sr else s.chip.sr &&& 0xFD })

/-- WRSR: with WEL = 1 and WIP = 0 it writes SRWD, BP1 and BP0 and starts a write cycle; with WEL = 0 or WIP = 1
nothing happens (R84, R90, which the spec marks as general knowledge, log entry 12). -/
def Obligations.WrsrWritesTheStatusRegister : Prop :=
  ∀ (s : State) (d : Byte), s.frameActive = false → s.chip.sr &&& 0x8C = 0 →
    ∃ t, exec (.wireWrsr d) s = .next t ∧
      t.chip = { s.chip with
        rx := none
        sr := if s.chip.wel = true ∧ s.chip.wip = false then (d &&& 0x8C) ||| (s.chip.sr &&& 0x02) ||| 0x01
              else s.chip.sr }

/-- WRITE: with WEL = 1, WIP = 0, no protection and at least one data byte, MEM gets the bytes at {A[17:8],
(A[7:0] + i) mod 256} in order and a write cycle starts; with WEL = 0, WIP = 1 or no data byte nothing happens (R84,
R86, in part marked as general knowledge, log entry 12). -/
def Obligations.WriteFrameStoresInOnePage : Prop :=
  ∀ (s : State) (a : FrameAddr) (ds : List Byte), s.frameActive = false → s.chip.sr &&& 0x8C = 0 →
    ∃ t, exec (.wireWrite a ds) s = .next t ∧
      t.chip =
        if s.chip.wel = true ∧ s.chip.wip = false ∧ ds ≠ [] then
          { s.chip with
            rx := none
            sr := s.chip.sr ||| 0x01
            mem := s.chip.mem.writeRun
              (fun i => (a.extractLsb' 8 10).toNat * 256 + ((a.extractLsb' 0 8).toNat + i) % 256) 0 ds }
        else { s.chip with rx := none }

/-- WRITE_ID: with WEL = 1, WIP = 0, no protection, the page not locked and at least one data byte, IDP gets the bytes
at (lo + i) mod 256 in order and a write cycle starts; otherwise nothing happens (R88; R84, marked as general
knowledge, log entry 12). -/
def Obligations.WriteIdFrameStoresInTheIdPage : Prop :=
  ∀ (s : State) (lo : Byte) (ds : List Byte), s.frameActive = false → s.chip.sr &&& 0x8C = 0 →
    ∃ t, exec (.wireWriteId lo ds) s = .next t ∧
      t.chip =
        if s.chip.wel = true ∧ s.chip.wip = false ∧ s.chip.locked = false ∧ ds ≠ [] then
          { s.chip with
            rx := none
            sr := s.chip.sr ||| 0x01
            idp := s.chip.idp.writeRun (fun i => (lo.toNat + i) % 256) 0 ds }
        else { s.chip with rx := none }

/-- LOCK_ID: with WEL = 1, WIP = 0, no protection and bit 1 of the data byte set, LOCKED becomes 1 and a write cycle
starts; otherwise nothing happens (R89; R84, marked as general knowledge, log entry 12). -/
def Obligations.LockIdFrameLocks : Prop :=
  ∀ (s : State) (d : Byte), s.frameActive = false → s.chip.sr &&& 0x8C = 0 →
    ∃ t, exec (.wireLockId d) s = .next t ∧
      t.chip =
        if s.chip.wel = true ∧ s.chip.wip = false ∧ d.getLsbD 1 = true then
          { s.chip with rx := none, sr := s.chip.sr ||| 0x01, locked := true }
        else { s.chip with rx := none }

/-- With SRWD, BP1 or BP0 set the spec does not say whether the chip accepts a write frame: whatever it does, the frame
has its whole effect or none (R86, R92, U9; the choice between the two is the model's, log entry 6). -/
def Obligations.ProtectedWriteFramesAreAllOrNothing : Prop :=
  ∀ s : State, s.frameActive = false → s.chip.sr &&& 0x8C ≠ 0 → s.chip.wip = false →
    (∀ d : Byte, ∃ t, exec (.wireWrsr d) s = .next t ∧
      (t.chip = { s.chip with rx := none } ∨
        t.chip = { s.chip with rx := none, sr := (d &&& 0x8C) ||| (s.chip.sr &&& 0x03) ||| 0x01 })) ∧
    (∀ (a : FrameAddr) (ds : List Byte), ∃ t, exec (.wireWrite a ds) s = .next t ∧
      (t.chip = { s.chip with rx := none } ∨
        t.chip = { s.chip with
          rx := none, sr := s.chip.sr ||| 0x01, mem := s.chip.mem.writeRun (mainWriteAddr a) 0 ds })) ∧
    (∀ (lo : Byte) (ds : List Byte), ∃ t, exec (.wireWriteId lo ds) s = .next t ∧
      (t.chip = { s.chip with rx := none } ∨
        t.chip = { s.chip with
          rx := none, sr := s.chip.sr ||| 0x01,
          idp := s.chip.idp.writeRun (idWriteAddr (addrOfBytes 0x00 0x00 lo)) 0 ds })) ∧
    ∀ d : Byte, ∃ t, exec (.wireLockId d) s = .next t ∧
      (t.chip = { s.chip with rx := none } ∨
        t.chip = { s.chip with rx := none, sr := s.chip.sr ||| 0x01, locked := true })

/-- The read frames: what each exchange is answered, and that the chip is left as it was. RDSR answers SR also during a
write cycle; READ rolls over at the top of MAIN; READ_ID answers IDP up to address 255; READ_LOCK_STATUS answers LOCKED
in bit 0. The answers the spec leaves open are existential (R83, R87; parts of R83 are marked as general knowledge, log
entry 12; that the answers are the same with SRWD, BP1 or BP0 set is the model's choice, log entry 24). -/
def Obligations.ReadFramesAnswerTheArrays : Prop :=
  ∀ s : State, s.frameActive = false →
    (∃ t h, exec .wireRdsr s = .next t ∧ t.chip = { s.chip with rx := none } ∧
      t.busTrace = s.busTrace ++ frameEvents [0x05, 0x00] [h, s.chip.sr]) ∧
    (s.chip.wip = false → ∀ (a : FrameAddr) (n : Nat), ∃ t h0 h1 h2 h3, exec (.wireRead a n) s = .next t ∧
      t.chip = { s.chip with rx := none } ∧
      t.busTrace = s.busTrace ++ frameEvents
        ([0x03, a.extractLsb' 16 8, a.extractLsb' 8 8, a.extractLsb' 0 8] ++ List.replicate n 0x00)
        ([h0, h1, h2, h3] ++
          (List.range n).map (fun k => s.chip.mem.read (((a.extractLsb' 0 18).toNat + k) % 0x40000)))) ∧
    (s.chip.wip = false → ∀ (lo : Byte) (n : Nat), ∃ t h0 h1 h2 h3, ∃ free : Nat → Byte,
      exec (.wireReadId lo n) s = .next t ∧ t.chip = { s.chip with rx := none } ∧
      t.busTrace = s.busTrace ++ frameEvents
        ([0x83, 0x00, 0x00, lo] ++ List.replicate n 0x00)
        ([h0, h1, h2, h3] ++ (List.range n).map (fun k =>
          if lo.toNat + k ≤ 255 then s.chip.idp.read (lo.toNat + k) else free k))) ∧
    (s.chip.wip = false → ∃ t h0 h1 h2 h3 b, exec .wireReadLockStatus s = .next t ∧
      t.chip = { s.chip with rx := none } ∧ b.getLsbD 0 = s.chip.locked ∧
      t.busTrace = s.busTrace ++ frameEvents [0x83, 0x00, 0x04, 0x00, 0x00] [h0, h1, h2, h3, b])

/-- `write_cycle_done` happens exactly when WIP = 1: it clears WIP and WEL and nothing else; with WIP = 0 nothing
happens (R91; that WEL is cleared is marked as general knowledge, log entry 12; the same with SRWD, BP1 or BP0 set is
the model's choice, log entry 24). -/
def Obligations.WriteCycleDoneClearsWipAndWel : Prop :=
  ∀ (s : State) (es : List Event), s.agenda = .writeCycleDone :: es →
    step s = .next { s with
      agenda := es
      chip := if s.chip.wip then { s.chip with sr := s.chip.sr &&& 0xFC } else s.chip }

/-- A WRITE inside a page, the end of its write cycle, then a READ of the same range answers exactly the bytes written,
in order (R67; R93, which the spec marks as derived; that a frame
acts at its end is marked as general knowledge in R82, as are parts of R83, R86 and R91, log entry 12). -/
def Obligations.PageWriteReadsBack : Prop :=
  ∀ (s : State) (a : FrameAddr) (ds : List Byte), s.frameActive = false → s.chip.mem.wf = true →
    s.chip.sr &&& 0x8C = 0 → s.chip.wel = true → s.chip.wip = false → ds ≠ [] →
    a.toNat % 256 + ds.length ≤ 256 →
    ∃ t u h0 h1 h2 h3, exec (.wireWrite a ds) s = .next t ∧
      exec (.wireRead a ds.length) (environment .writeCycleDone t) = .next u ∧
      u.busTrace = t.busTrace ++ frameEvents
        ([0x03, a.extractLsb' 16 8, a.extractLsb' 8 8, a.extractLsb' 0 8] ++ List.replicate ds.length 0x00)
        ([h0, h1, h2, h3] ++ ds)

/-- The byte round trip, block and responder together: SET_WRITE_ENABLE, WRITE_BYTE of D at A, the end of the write
cycle, READ_BYTE at A returns D, for every A below 0x40000 and every D (R93, which the spec marks as
derived; that a frame acts at its end is marked as general knowledge in R82, as are parts of R83 and R91, log entry
12). -/
def Obligations.ByteWriteReadsBack : Prop :=
  ∀ (s : State) (a : HostAddr) (d d0 d1 : Byte) (n0 n1 n2 : Len) (a0 : HostAddr), a.toNat < 0x40000 →
    s.phase = .idle → s.bus = [] → s.link = .responder [] → s.chip.wip = false → s.chip.sr &&& 0x8C = 0 →
    s.chip.mem.wf = true → s.cmd = [⟨0x7, ⟨a0, n0, d0⟩⟩, ⟨0x1, ⟨a, n1, d⟩⟩, ⟨0x3, ⟨a, n2, d1⟩⟩] →
    s.agenda = List.replicate 8 .turn ++ [.writeCycleDone] →
    ∃ t, core.run 15 s = .next t ∧ t.phase = .idle ∧ t.rData = d ∧
      t.responses = s.responses ++
        [⟨0, 0, false, .noError⟩, ⟨1, 0, false, .noError⟩, ⟨1, d, false, .noError⟩]
end

