-- ==== Sys2Proof/Laws/Memory.lean ====
section
/-! SUPPORT. The laws of a memory: read after write, and that every operation keeps the canonical form and the bounds of
the space. -/

namespace Sys2Proof.Machine

@[simp] theorem Memory.read_nil (a : Nat) : Memory.read [] a = Config.unlisted := rfl

theorem Memory.wfFrom_cons (lo a : Nat) (v : Byte) (m : Memory) :
    Memory.wfFrom lo ((a, v) :: m) = true ↔ lo ≤ a ∧ v ≠ Config.unlisted ∧ Memory.wfFrom (a + 1) m = true := by
  simp [Memory.wfFrom, and_assoc]

theorem Memory.wfFrom_mono {lo hi : Nat} (h : lo ≤ hi) {m : Memory} (hm : Memory.wfFrom hi m = true) :
    Memory.wfFrom lo m = true := by
  cases m with
  | nil => rfl
  | cons c m =>
    obtain ⟨a, v⟩ := c
    rw [Memory.wfFrom_cons] at hm ⊢
    exact ⟨h.trans hm.1, hm.2⟩

/-- Below the least address a canonical memory reads as unlisted. -/
theorem Memory.read_of_lt {lo a : Nat} (h : a < lo) {m : Memory} (hm : Memory.wfFrom lo m = true) :
    Memory.read m a = Config.unlisted := by
  induction m generalizing lo with
  | nil => rfl
  | cons c m ih =>
    obtain ⟨b, v⟩ := c
    rw [Memory.wfFrom_cons] at hm
    have hab : a ≠ b := by omega
    simp only [Memory.read, hab, if_false]
    exact ih (lo := b + 1) (by omega) hm.2.2

theorem Memory.wfFrom_write {lo a : Nat} (h : lo ≤ a) {m : Memory} (hm : Memory.wfFrom lo m = true) (v : Byte) :
    Memory.wfFrom lo (Memory.write m a v) = true := by
  induction m generalizing lo with
  | nil =>
    by_cases hv : v = Config.unlisted
    · simp [Memory.write, hv, Memory.wfFrom]
    · simp only [Memory.write, hv, if_false, Memory.wfFrom_cons]
      exact ⟨h, hv, rfl⟩
  | cons c m ih =>
    obtain ⟨b, w⟩ := c
    have hm' := hm
    rw [Memory.wfFrom_cons] at hm
    obtain ⟨hb, hw, hrest⟩ := hm
    simp only [Memory.write]
    by_cases hab : a < b
    · by_cases hv : v = Config.unlisted
      · simpa [hab, hv] using hm'
      · simp only [hab, hv, if_true, if_false, Memory.wfFrom_cons]
        exact ⟨h, hv, by omega, hw, hrest⟩
    · by_cases he : a = b
      · by_cases hv : v = Config.unlisted
        · simpa [hab, he, hv] using Memory.wfFrom_mono (by omega) hrest
        · simp only [he, hv, if_true, if_false, Memory.wfFrom_cons, lt_irrefl]
          exact ⟨hb, hv, hrest⟩
      · simp only [hab, he, if_false, Memory.wfFrom_cons]
        exact ⟨hb, hw, ih (by omega) hrest⟩

/-- A write keeps the canonical form. -/
theorem Memory.wf_write {m : Memory} (hm : m.wf = true) (a : Nat) (v : Byte) : (m.write a v).wf = true :=
  Memory.wfFrom_write (Nat.zero_le a) hm v

/-- A read of the address just written gives the value written. -/
theorem Memory.read_write_same {lo : Nat} {m : Memory} (hm : Memory.wfFrom lo m = true) (a : Nat) (v : Byte) :
    Memory.read (Memory.write m a v) a = v := by
  induction m generalizing lo with
  | nil => by_cases hv : v = Config.unlisted <;> simp [Memory.write, Memory.read, hv]
  | cons c m ih =>
    obtain ⟨b, w⟩ := c
    rw [Memory.wfFrom_cons] at hm
    obtain ⟨-, -, hrest⟩ := hm
    simp only [Memory.write]
    by_cases hab : a < b
    · have hne : a ≠ b := by omega
      by_cases hv : v = Config.unlisted
      · simp only [hab, hv, if_true, Memory.read, hne, if_false]
        exact Memory.read_of_lt (by omega) hrest
      · simp [hab, hv, Memory.read]
    · by_cases he : a = b
      · subst he
        by_cases hv : v = Config.unlisted
        · simp only [lt_irrefl, hv, if_true, if_false]
          exact Memory.read_of_lt (Nat.lt_succ_self a) hrest
        · simp [hv, Memory.read]
      · simp only [hab, he, if_false, Memory.read]
        exact ih hrest

/-- A write leaves every other address alone. -/
theorem Memory.read_write_other (m : Memory) {a b : Nat} (h : b ≠ a) (v : Byte) :
    Memory.read (Memory.write m a v) b = Memory.read m b := by
  induction m with
  | nil => by_cases hv : v = Config.unlisted <;> simp [Memory.write, Memory.read, hv, h]
  | cons c m ih =>
    obtain ⟨k, w⟩ := c
    simp only [Memory.write]
    by_cases hak : a < k
    · by_cases hv : v = Config.unlisted <;> simp [hak, hv, Memory.read, h]
    · by_cases he : a = k
      · subst he
        by_cases hv : v = Config.unlisted <;> simp [hv, Memory.read, h]
      · simp only [hak, he, if_false, Memory.read, ih]

/-- Reading after a canonical memory is written: the written value at its address, the old one elsewhere. -/
theorem Memory.read_write {m : Memory} (hm : m.wf = true) (a b : Nat) (v : Byte) :
    Memory.read (Memory.write m a v) b = if b = a then v else Memory.read m b := by
  by_cases h : b = a
  · subst h; simp [Memory.read_write_same hm]
  · simp [h, Memory.read_write_other m h]

theorem Memory.below_cons (hi a : Nat) (v : Byte) (m : Memory) :
    Memory.below hi ((a, v) :: m) = true ↔ a < hi ∧ Memory.below hi m = true := by
  simp [Memory.below]

/-- A write within a space keeps every listed address within it. -/
theorem Memory.below_write {hi a : Nat} (h : a < hi) {m : Memory} (hm : Memory.below hi m = true) (v : Byte) :
    Memory.below hi (Memory.write m a v) = true := by
  induction m with
  | nil => by_cases hv : v = Config.unlisted <;> simp [Memory.write, Memory.below, hv, h]
  | cons c m ih =>
    obtain ⟨b, w⟩ := c
    rw [Memory.below_cons] at hm
    simp only [Memory.write]
    split_ifs <;> simp only [Memory.below_cons, h, hm, ih hm.2, and_self]

/-- A run of writes keeps the canonical form. -/
theorem Memory.wf_writeRun {m : Memory} (hm : m.wf = true) (addrOf : Nat → Nat) (i : Nat) (ds : List Byte) :
    (m.writeRun addrOf i ds).wf = true := by
  induction ds generalizing m i with
  | nil => exact hm
  | cons d ds ih => exact ih (Memory.wf_write hm _ _) _

/-- A run of writes within a space stays within it. -/
theorem Memory.below_writeRun {hi : Nat} {addrOf : Nat → Nat} (h : ∀ i, addrOf i < hi) {m : Memory}
    (hm : m.below hi = true) (i : Nat) (ds : List Byte) : (m.writeRun addrOf i ds).below hi = true := by
  induction ds generalizing m i with
  | nil => exact hm
  | cons d ds ih => exact ih (Memory.below_write (h i) hm d) _

/-- A run of writes leaves alone every address none of its bytes goes to. -/
theorem Memory.read_writeRun_other (m : Memory) (addrOf : Nat → Nat) (i : Nat) (ds : List Byte) {b : Nat}
    (h : ∀ k, k < ds.length → b ≠ addrOf (i + k)) : Memory.read (m.writeRun addrOf i ds) b = Memory.read m b := by
  induction ds generalizing m i with
  | nil => rfl
  | cons d ds ih =>
    rw [Memory.writeRun, ih, Memory.read_write_other]
    · simpa using h 0 (by simp)
    · intro k hk
      have := h (k + 1) (by simpa using hk)
      rwa [show i + (k + 1) = i + 1 + k by omega] at this

end Sys2Proof.Machine
end

