-- ==== Sys2Proof/Laws/State.lean ====
section
/-! SUPPORT. One lemma per field for each named update of the state, so that no later proof unfolds one. -/

namespace Sys2Proof.Machine

/-! #### State.frameBegin -/

@[simp] theorem State.frameBegin_cfg (s : State) :
    (s.frameBegin).cfg = s.cfg := rfl
@[simp] theorem State.frameBegin_phase (s : State) :
    (s.frameBegin).phase = s.phase := rfl
@[simp] theorem State.frameBegin_idx (s : State) :
    (s.frameBegin).idx = s.idx := rfl
@[simp] theorem State.frameBegin_lOp (s : State) :
    (s.frameBegin).lOp = s.lOp := rfl
@[simp] theorem State.frameBegin_faddr (s : State) :
    (s.frameBegin).faddr = s.faddr := rfl
@[simp] theorem State.frameBegin_lLen (s : State) :
    (s.frameBegin).lLen = s.lLen := rfl
@[simp] theorem State.frameBegin_lData (s : State) :
    (s.frameBegin).lData = s.lData := rfl
@[simp] theorem State.frameBegin_rData (s : State) :
    (s.frameBegin).rData = s.rData := rfl
@[simp] theorem State.frameBegin_rFlag (s : State) :
    (s.frameBegin).rFlag = s.rFlag := rfl
@[simp] theorem State.frameBegin_rErr (s : State) :
    (s.frameBegin).rErr = s.rErr := rfl
@[simp] theorem State.frameBegin_buf (s : State) :
    (s.frameBegin).buf = s.buf := rfl
@[simp] theorem State.frameBegin_cmd (s : State) :
    (s.frameBegin).cmd = s.cmd := rfl
@[simp] theorem State.frameBegin_responses (s : State) :
    (s.frameBegin).responses = s.responses := rfl
@[simp] theorem State.frameBegin_trace (s : State) :
    (s.frameBegin).trace = s.trace ++ [.frameBegin] := rfl
@[simp] theorem State.frameBegin_bufLog (s : State) :
    (s.frameBegin).bufLog = s.bufLog := rfl
@[simp] theorem State.frameBegin_link (s : State) :
    (s.frameBegin).link = s.link := rfl
@[simp] theorem State.frameBegin_chip (s : State) :
    (s.frameBegin).chip = if s.link.attached then s.chip.openFrame else s.chip := rfl
@[simp] theorem State.frameBegin_bus (s : State) :
    (s.frameBegin).bus = s.bus := rfl
@[simp] theorem State.frameBegin_busTrace (s : State) :
    (s.frameBegin).busTrace = s.busTrace := rfl
@[simp] theorem State.frameBegin_draws (s : State) :
    (s.frameBegin).draws = s.draws := rfl
@[simp] theorem State.frameBegin_agenda (s : State) :
    (s.frameBegin).agenda = s.agenda := rfl

/-! #### State.frameEnd -/

@[simp] theorem State.frameEnd_cfg (s : State) :
    (s.frameEnd).cfg = s.cfg := rfl
@[simp] theorem State.frameEnd_phase (s : State) :
    (s.frameEnd).phase = s.phase := rfl
@[simp] theorem State.frameEnd_idx (s : State) :
    (s.frameEnd).idx = s.idx := rfl
@[simp] theorem State.frameEnd_lOp (s : State) :
    (s.frameEnd).lOp = s.lOp := rfl
@[simp] theorem State.frameEnd_faddr (s : State) :
    (s.frameEnd).faddr = s.faddr := rfl
@[simp] theorem State.frameEnd_lLen (s : State) :
    (s.frameEnd).lLen = s.lLen := rfl
@[simp] theorem State.frameEnd_lData (s : State) :
    (s.frameEnd).lData = s.lData := rfl
@[simp] theorem State.frameEnd_rData (s : State) :
    (s.frameEnd).rData = s.rData := rfl
@[simp] theorem State.frameEnd_rFlag (s : State) :
    (s.frameEnd).rFlag = s.rFlag := rfl
@[simp] theorem State.frameEnd_rErr (s : State) :
    (s.frameEnd).rErr = s.rErr := rfl
@[simp] theorem State.frameEnd_buf (s : State) :
    (s.frameEnd).buf = s.buf := rfl
@[simp] theorem State.frameEnd_cmd (s : State) :
    (s.frameEnd).cmd = s.cmd := rfl
@[simp] theorem State.frameEnd_responses (s : State) :
    (s.frameEnd).responses = s.responses := rfl
@[simp] theorem State.frameEnd_trace (s : State) :
    (s.frameEnd).trace = s.trace ++ [.frameEnd] := rfl
@[simp] theorem State.frameEnd_bufLog (s : State) :
    (s.frameEnd).bufLog = s.bufLog := rfl
@[simp] theorem State.frameEnd_link (s : State) :
    (s.frameEnd).link = s.link := rfl
@[simp] theorem State.frameEnd_chip (s : State) :
    (s.frameEnd).chip = if s.link.attached then s.chip.frameEnd else s.chip := rfl
@[simp] theorem State.frameEnd_bus (s : State) :
    (s.frameEnd).bus = s.bus := rfl
@[simp] theorem State.frameEnd_busTrace (s : State) :
    (s.frameEnd).busTrace = s.busTrace := rfl
@[simp] theorem State.frameEnd_draws (s : State) :
    (s.frameEnd).draws = s.draws := rfl
@[simp] theorem State.frameEnd_agenda (s : State) :
    (s.frameEnd).agenda = s.agenda := rfl

/-! #### State.complete -/

@[simp] theorem State.complete_cfg (s : State) :
    (s.complete).cfg = s.cfg := rfl
@[simp] theorem State.complete_phase (s : State) :
    (s.complete).phase = s.phase := rfl
@[simp] theorem State.complete_idx (s : State) :
    (s.complete).idx = s.idx := rfl
@[simp] theorem State.complete_lOp (s : State) :
    (s.complete).lOp = s.lOp := rfl
@[simp] theorem State.complete_faddr (s : State) :
    (s.complete).faddr = s.faddr := rfl
@[simp] theorem State.complete_lLen (s : State) :
    (s.complete).lLen = s.lLen := rfl
@[simp] theorem State.complete_lData (s : State) :
    (s.complete).lData = s.lData := rfl
@[simp] theorem State.complete_rData (s : State) :
    (s.complete).rData = s.rData := rfl
@[simp] theorem State.complete_rFlag (s : State) :
    (s.complete).rFlag = s.rFlag := rfl
@[simp] theorem State.complete_rErr (s : State) :
    (s.complete).rErr = s.rErr := rfl
@[simp] theorem State.complete_buf (s : State) :
    (s.complete).buf = s.buf := rfl
@[simp] theorem State.complete_cmd (s : State) :
    (s.complete).cmd = s.cmd := rfl
@[simp] theorem State.complete_responses (s : State) :
    (s.complete).responses = s.responses ++ [{ count := s.idx, data := s.rData, flag := s.rFlag, err := s.rErr }] := rfl
@[simp] theorem State.complete_trace (s : State) :
    (s.complete).trace = s.trace := rfl
@[simp] theorem State.complete_bufLog (s : State) :
    (s.complete).bufLog = s.bufLog := rfl
@[simp] theorem State.complete_link (s : State) :
    (s.complete).link = s.link := rfl
@[simp] theorem State.complete_chip (s : State) :
    (s.complete).chip = s.chip := rfl
@[simp] theorem State.complete_bus (s : State) :
    (s.complete).bus = s.bus := rfl
@[simp] theorem State.complete_busTrace (s : State) :
    (s.complete).busTrace = s.busTrace := rfl
@[simp] theorem State.complete_draws (s : State) :
    (s.complete).draws = s.draws := rfl
@[simp] theorem State.complete_agenda (s : State) :
    (s.complete).agenda = s.agenda := rfl

/-! #### State.bufWrite -/

@[simp] theorem State.bufWrite_cfg (s : State) (i : Len) (v : Byte) :
    (s.bufWrite i v).cfg = s.cfg := rfl
@[simp] theorem State.bufWrite_phase (s : State) (i : Len) (v : Byte) :
    (s.bufWrite i v).phase = s.phase := rfl
@[simp] theorem State.bufWrite_idx (s : State) (i : Len) (v : Byte) :
    (s.bufWrite i v).idx = s.idx := rfl
@[simp] theorem State.bufWrite_lOp (s : State) (i : Len) (v : Byte) :
    (s.bufWrite i v).lOp = s.lOp := rfl
@[simp] theorem State.bufWrite_faddr (s : State) (i : Len) (v : Byte) :
    (s.bufWrite i v).faddr = s.faddr := rfl
@[simp] theorem State.bufWrite_lLen (s : State) (i : Len) (v : Byte) :
    (s.bufWrite i v).lLen = s.lLen := rfl
@[simp] theorem State.bufWrite_lData (s : State) (i : Len) (v : Byte) :
    (s.bufWrite i v).lData = s.lData := rfl
@[simp] theorem State.bufWrite_rData (s : State) (i : Len) (v : Byte) :
    (s.bufWrite i v).rData = s.rData := rfl
@[simp] theorem State.bufWrite_rFlag (s : State) (i : Len) (v : Byte) :
    (s.bufWrite i v).rFlag = s.rFlag := rfl
@[simp] theorem State.bufWrite_rErr (s : State) (i : Len) (v : Byte) :
    (s.bufWrite i v).rErr = s.rErr := rfl
@[simp] theorem State.bufWrite_buf (s : State) (i : Len) (v : Byte) :
    (s.bufWrite i v).buf = s.buf.write i.toNat v := rfl
@[simp] theorem State.bufWrite_cmd (s : State) (i : Len) (v : Byte) :
    (s.bufWrite i v).cmd = s.cmd := rfl
@[simp] theorem State.bufWrite_responses (s : State) (i : Len) (v : Byte) :
    (s.bufWrite i v).responses = s.responses := rfl
@[simp] theorem State.bufWrite_trace (s : State) (i : Len) (v : Byte) :
    (s.bufWrite i v).trace = s.trace := rfl
@[simp] theorem State.bufWrite_bufLog (s : State) (i : Len) (v : Byte) :
    (s.bufWrite i v).bufLog = s.bufLog ++ [.write i v] := rfl
@[simp] theorem State.bufWrite_link (s : State) (i : Len) (v : Byte) :
    (s.bufWrite i v).link = s.link := rfl
@[simp] theorem State.bufWrite_chip (s : State) (i : Len) (v : Byte) :
    (s.bufWrite i v).chip = s.chip := rfl
@[simp] theorem State.bufWrite_bus (s : State) (i : Len) (v : Byte) :
    (s.bufWrite i v).bus = s.bus := rfl
@[simp] theorem State.bufWrite_busTrace (s : State) (i : Len) (v : Byte) :
    (s.bufWrite i v).busTrace = s.busTrace := rfl
@[simp] theorem State.bufWrite_draws (s : State) (i : Len) (v : Byte) :
    (s.bufWrite i v).draws = s.draws := rfl
@[simp] theorem State.bufWrite_agenda (s : State) (i : Len) (v : Byte) :
    (s.bufWrite i v).agenda = s.agenda := rfl

/-! #### State.closeFrame -/

@[simp] theorem State.closeFrame_cfg (s : State) :
    (s.closeFrame).cfg = s.cfg := by
  unfold State.closeFrame; split <;> rfl
@[simp] theorem State.closeFrame_phase (s : State) :
    (s.closeFrame).phase = s.phase := by
  unfold State.closeFrame; split <;> rfl
@[simp] theorem State.closeFrame_idx (s : State) :
    (s.closeFrame).idx = s.idx := by
  unfold State.closeFrame; split <;> rfl
@[simp] theorem State.closeFrame_lOp (s : State) :
    (s.closeFrame).lOp = s.lOp := by
  unfold State.closeFrame; split <;> rfl
@[simp] theorem State.closeFrame_faddr (s : State) :
    (s.closeFrame).faddr = s.faddr := by
  unfold State.closeFrame; split <;> rfl
@[simp] theorem State.closeFrame_lLen (s : State) :
    (s.closeFrame).lLen = s.lLen := by
  unfold State.closeFrame; split <;> rfl
@[simp] theorem State.closeFrame_lData (s : State) :
    (s.closeFrame).lData = s.lData := by
  unfold State.closeFrame; split <;> rfl
@[simp] theorem State.closeFrame_rData (s : State) :
    (s.closeFrame).rData = s.rData := by
  unfold State.closeFrame; split <;> rfl
@[simp] theorem State.closeFrame_rFlag (s : State) :
    (s.closeFrame).rFlag = s.rFlag := by
  unfold State.closeFrame; split <;> rfl
@[simp] theorem State.closeFrame_rErr (s : State) :
    (s.closeFrame).rErr = s.rErr := by
  unfold State.closeFrame; split <;> rfl
@[simp] theorem State.closeFrame_buf (s : State) :
    (s.closeFrame).buf = s.buf := by
  unfold State.closeFrame; split <;> rfl
@[simp] theorem State.closeFrame_cmd (s : State) :
    (s.closeFrame).cmd = s.cmd := by
  unfold State.closeFrame; split <;> rfl
@[simp] theorem State.closeFrame_responses (s : State) :
    (s.closeFrame).responses = s.responses := by
  unfold State.closeFrame; split <;> rfl
@[simp] theorem State.closeFrame_trace (s : State) :
    (s.closeFrame).trace = if s.frameActive then s.trace ++ [.frameEnd] else s.trace := by
  unfold State.closeFrame; split <;> simp_all
@[simp] theorem State.closeFrame_bufLog (s : State) :
    (s.closeFrame).bufLog = s.bufLog := by
  unfold State.closeFrame; split <;> rfl
@[simp] theorem State.closeFrame_link (s : State) :
    (s.closeFrame).link = s.link := by
  unfold State.closeFrame; split <;> rfl
@[simp] theorem State.closeFrame_chip (s : State) :
    (s.closeFrame).chip = if s.frameActive ∧ s.link.attached then s.chip.frameEnd else s.chip := by
  unfold State.closeFrame; split <;> simp_all
@[simp] theorem State.closeFrame_bus (s : State) :
    (s.closeFrame).bus = s.bus := by
  unfold State.closeFrame; split <;> rfl
@[simp] theorem State.closeFrame_busTrace (s : State) :
    (s.closeFrame).busTrace = s.busTrace := by
  unfold State.closeFrame; split <;> rfl
@[simp] theorem State.closeFrame_draws (s : State) :
    (s.closeFrame).draws = s.draws := by
  unfold State.closeFrame; split <;> rfl
@[simp] theorem State.closeFrame_agenda (s : State) :
    (s.closeFrame).agenda = s.agenda := by
  unfold State.closeFrame; split <;> rfl

/-! #### State.raise -/

@[simp] theorem State.raise_cfg (e : ErrorCode) (s : State) :
    (s.raise e).cfg = s.cfg := by
  simp [State.raise]
@[simp] theorem State.raise_phase (e : ErrorCode) (s : State) :
    (s.raise e).phase = .idle := by
  simp [State.raise]
@[simp] theorem State.raise_idx (e : ErrorCode) (s : State) :
    (s.raise e).idx = s.idx := by
  simp [State.raise]
@[simp] theorem State.raise_lOp (e : ErrorCode) (s : State) :
    (s.raise e).lOp = s.lOp := by
  simp [State.raise]
@[simp] theorem State.raise_faddr (e : ErrorCode) (s : State) :
    (s.raise e).faddr = s.faddr := by
  simp [State.raise]
@[simp] theorem State.raise_lLen (e : ErrorCode) (s : State) :
    (s.raise e).lLen = s.lLen := by
  simp [State.raise]
@[simp] theorem State.raise_lData (e : ErrorCode) (s : State) :
    (s.raise e).lData = s.lData := by
  simp [State.raise]
@[simp] theorem State.raise_rData (e : ErrorCode) (s : State) :
    (s.raise e).rData = s.rData := by
  simp [State.raise]
@[simp] theorem State.raise_rFlag (e : ErrorCode) (s : State) :
    (s.raise e).rFlag = s.rFlag := by
  simp [State.raise]
@[simp] theorem State.raise_rErr (e : ErrorCode) (s : State) :
    (s.raise e).rErr = e := by
  simp [State.raise]
@[simp] theorem State.raise_buf (e : ErrorCode) (s : State) :
    (s.raise e).buf = s.buf := by
  simp [State.raise]
@[simp] theorem State.raise_cmd (e : ErrorCode) (s : State) :
    (s.raise e).cmd = s.cmd := by
  simp [State.raise]
@[simp] theorem State.raise_responses (e : ErrorCode) (s : State) :
    (s.raise e).responses = s.responses ++ [{ count := s.idx, data := s.rData, flag := s.rFlag, err := e }] := by
  simp [State.raise]
@[simp] theorem State.raise_trace (e : ErrorCode) (s : State) :
    (s.raise e).trace = if s.frameActive then s.trace ++ [.frameEnd] else s.trace := by
  simp [State.raise]
@[simp] theorem State.raise_bufLog (e : ErrorCode) (s : State) :
    (s.raise e).bufLog = s.bufLog := by
  simp [State.raise]
@[simp] theorem State.raise_link (e : ErrorCode) (s : State) :
    (s.raise e).link = s.link := by
  simp [State.raise]
@[simp] theorem State.raise_chip (e : ErrorCode) (s : State) :
    (s.raise e).chip = if s.frameActive ∧ s.link.attached then s.chip.frameEnd else s.chip := by
  simp [State.raise]
@[simp] theorem State.raise_bus (e : ErrorCode) (s : State) :
    (s.raise e).bus = s.bus := by
  simp [State.raise]
@[simp] theorem State.raise_busTrace (e : ErrorCode) (s : State) :
    (s.raise e).busTrace = s.busTrace := by
  simp [State.raise]
@[simp] theorem State.raise_draws (e : ErrorCode) (s : State) :
    (s.raise e).draws = s.draws := by
  simp [State.raise]
@[simp] theorem State.raise_agenda (e : ErrorCode) (s : State) :
    (s.raise e).agenda = s.agenda := by
  simp [State.raise]

/-! #### State.beginIssue -/

@[simp] theorem State.beginIssue_cfg (op : OpCode) (s : State) :
    (s.beginIssue op).cfg = s.cfg := rfl
@[simp] theorem State.beginIssue_phase (op : OpCode) (s : State) :
    (s.beginIssue op).phase = s.phase := rfl
@[simp] theorem State.beginIssue_idx (op : OpCode) (s : State) :
    (s.beginIssue op).idx = 0 := rfl
@[simp] theorem State.beginIssue_lOp (op : OpCode) (s : State) :
    (s.beginIssue op).lOp = op := rfl
@[simp] theorem State.beginIssue_faddr (op : OpCode) (s : State) :
    (s.beginIssue op).faddr = s.faddr := rfl
@[simp] theorem State.beginIssue_lLen (op : OpCode) (s : State) :
    (s.beginIssue op).lLen = s.lLen := rfl
@[simp] theorem State.beginIssue_lData (op : OpCode) (s : State) :
    (s.beginIssue op).lData = s.lData := rfl
@[simp] theorem State.beginIssue_rData (op : OpCode) (s : State) :
    (s.beginIssue op).rData = 0 := rfl
@[simp] theorem State.beginIssue_rFlag (op : OpCode) (s : State) :
    (s.beginIssue op).rFlag = false := rfl
@[simp] theorem State.beginIssue_rErr (op : OpCode) (s : State) :
    (s.beginIssue op).rErr = .noError := rfl
@[simp] theorem State.beginIssue_buf (op : OpCode) (s : State) :
    (s.beginIssue op).buf = s.buf := rfl
@[simp] theorem State.beginIssue_cmd (op : OpCode) (s : State) :
    (s.beginIssue op).cmd = s.cmd.tail := rfl
@[simp] theorem State.beginIssue_responses (op : OpCode) (s : State) :
    (s.beginIssue op).responses = s.responses := rfl
@[simp] theorem State.beginIssue_trace (op : OpCode) (s : State) :
    (s.beginIssue op).trace = s.trace := rfl
@[simp] theorem State.beginIssue_bufLog (op : OpCode) (s : State) :
    (s.beginIssue op).bufLog = s.bufLog := rfl
@[simp] theorem State.beginIssue_link (op : OpCode) (s : State) :
    (s.beginIssue op).link = s.link := rfl
@[simp] theorem State.beginIssue_chip (op : OpCode) (s : State) :
    (s.beginIssue op).chip = s.chip := rfl
@[simp] theorem State.beginIssue_bus (op : OpCode) (s : State) :
    (s.beginIssue op).bus = s.bus := rfl
@[simp] theorem State.beginIssue_busTrace (op : OpCode) (s : State) :
    (s.beginIssue op).busTrace = s.busTrace := rfl
@[simp] theorem State.beginIssue_draws (op : OpCode) (s : State) :
    (s.beginIssue op).draws = s.draws := rfl
@[simp] theorem State.beginIssue_agenda (op : OpCode) (s : State) :
    (s.beginIssue op).agenda = s.agenda := rfl

/-! #### frame_active after an update that leaves PHASE alone -/

@[simp] theorem State.frameBegin_frameActive (s : State) : s.frameBegin.frameActive = s.frameActive := rfl
@[simp] theorem State.frameEnd_frameActive (s : State) : s.frameEnd.frameActive = s.frameActive := rfl
@[simp] theorem State.beginIssue_frameActive (op : OpCode) (s : State) :
    (s.beginIssue op).frameActive = s.frameActive := rfl
@[simp] theorem Descriptor.noteBufRead_frameActive (d : Descriptor) (s : State) :
    (d.noteBufRead s).frameActive = s.frameActive := by
  unfold Descriptor.noteBufRead; split <;> rfl
@[simp] theorem State.raise_frameActive (e : ErrorCode) (s : State) : (s.raise e).frameActive = false := by
  simp [State.raise, State.frameActive, State.complete, Phase.inFrame]
@[simp] theorem State.finish_frameActive (s : State) : s.finish.frameActive = false := rfl

/-! #### State.finish -/

@[simp] theorem State.finish_cfg (s : State) :
    (s.finish).cfg = s.cfg := rfl
@[simp] theorem State.finish_phase (s : State) :
    (s.finish).phase = .idle := rfl
@[simp] theorem State.finish_idx (s : State) :
    (s.finish).idx = s.idx := rfl
@[simp] theorem State.finish_lOp (s : State) :
    (s.finish).lOp = s.lOp := rfl
@[simp] theorem State.finish_faddr (s : State) :
    (s.finish).faddr = s.faddr := rfl
@[simp] theorem State.finish_lLen (s : State) :
    (s.finish).lLen = s.lLen := rfl
@[simp] theorem State.finish_lData (s : State) :
    (s.finish).lData = s.lData := rfl
@[simp] theorem State.finish_rData (s : State) :
    (s.finish).rData = s.rData := rfl
@[simp] theorem State.finish_rFlag (s : State) :
    (s.finish).rFlag = s.rFlag := rfl
@[simp] theorem State.finish_rErr (s : State) :
    (s.finish).rErr = s.rErr := rfl
@[simp] theorem State.finish_buf (s : State) :
    (s.finish).buf = s.buf := rfl
@[simp] theorem State.finish_cmd (s : State) :
    (s.finish).cmd = s.cmd := rfl
@[simp] theorem State.finish_responses (s : State) :
    (s.finish).responses = s.responses ++ [{ count := s.idx, data := s.rData, flag := s.rFlag, err := s.rErr }] := rfl
@[simp] theorem State.finish_trace (s : State) :
    (s.finish).trace = s.trace ++ [.frameEnd] := rfl
@[simp] theorem State.finish_bufLog (s : State) :
    (s.finish).bufLog = s.bufLog := rfl
@[simp] theorem State.finish_link (s : State) :
    (s.finish).link = s.link := rfl
@[simp] theorem State.finish_chip (s : State) :
    (s.finish).chip = if s.link.attached then s.chip.frameEnd else s.chip := rfl
@[simp] theorem State.finish_bus (s : State) :
    (s.finish).bus = s.bus := rfl
@[simp] theorem State.finish_busTrace (s : State) :
    (s.finish).busTrace = s.busTrace := rfl
@[simp] theorem State.finish_draws (s : State) :
    (s.finish).draws = s.draws := rfl
@[simp] theorem State.finish_agenda (s : State) :
    (s.finish).agenda = s.agenda := rfl

/-! #### Descriptor.noteBufRead -/

@[simp] theorem Descriptor.noteBufRead_cfg (d : Descriptor) (s : State) :
    (d.noteBufRead s).cfg = s.cfg := by
  unfold Descriptor.noteBufRead; split <;> rfl
@[simp] theorem Descriptor.noteBufRead_phase (d : Descriptor) (s : State) :
    (d.noteBufRead s).phase = s.phase := by
  unfold Descriptor.noteBufRead; split <;> rfl
@[simp] theorem Descriptor.noteBufRead_idx (d : Descriptor) (s : State) :
    (d.noteBufRead s).idx = s.idx := by
  unfold Descriptor.noteBufRead; split <;> rfl
@[simp] theorem Descriptor.noteBufRead_lOp (d : Descriptor) (s : State) :
    (d.noteBufRead s).lOp = s.lOp := by
  unfold Descriptor.noteBufRead; split <;> rfl
@[simp] theorem Descriptor.noteBufRead_faddr (d : Descriptor) (s : State) :
    (d.noteBufRead s).faddr = s.faddr := by
  unfold Descriptor.noteBufRead; split <;> rfl
@[simp] theorem Descriptor.noteBufRead_lLen (d : Descriptor) (s : State) :
    (d.noteBufRead s).lLen = s.lLen := by
  unfold Descriptor.noteBufRead; split <;> rfl
@[simp] theorem Descriptor.noteBufRead_lData (d : Descriptor) (s : State) :
    (d.noteBufRead s).lData = s.lData := by
  unfold Descriptor.noteBufRead; split <;> rfl
@[simp] theorem Descriptor.noteBufRead_rData (d : Descriptor) (s : State) :
    (d.noteBufRead s).rData = s.rData := by
  unfold Descriptor.noteBufRead; split <;> rfl
@[simp] theorem Descriptor.noteBufRead_rFlag (d : Descriptor) (s : State) :
    (d.noteBufRead s).rFlag = s.rFlag := by
  unfold Descriptor.noteBufRead; split <;> rfl
@[simp] theorem Descriptor.noteBufRead_rErr (d : Descriptor) (s : State) :
    (d.noteBufRead s).rErr = s.rErr := by
  unfold Descriptor.noteBufRead; split <;> rfl
@[simp] theorem Descriptor.noteBufRead_buf (d : Descriptor) (s : State) :
    (d.noteBufRead s).buf = s.buf := by
  unfold Descriptor.noteBufRead; split <;> rfl
@[simp] theorem Descriptor.noteBufRead_cmd (d : Descriptor) (s : State) :
    (d.noteBufRead s).cmd = s.cmd := by
  unfold Descriptor.noteBufRead; split <;> rfl
@[simp] theorem Descriptor.noteBufRead_responses (d : Descriptor) (s : State) :
    (d.noteBufRead s).responses = s.responses := by
  unfold Descriptor.noteBufRead; split <;> rfl
@[simp] theorem Descriptor.noteBufRead_trace (d : Descriptor) (s : State) :
    (d.noteBufRead s).trace = s.trace := by
  unfold Descriptor.noteBufRead; split <;> rfl
@[simp] theorem Descriptor.noteBufRead_bufLog (d : Descriptor) (s : State) :
    (d.noteBufRead s).bufLog = if d.dir = .write ∧ d.src = .buf then s.bufLog ++ [.read s.idx] else s.bufLog := by
  unfold Descriptor.noteBufRead; split <;> rfl
@[simp] theorem Descriptor.noteBufRead_link (d : Descriptor) (s : State) :
    (d.noteBufRead s).link = s.link := by
  unfold Descriptor.noteBufRead; split <;> rfl
@[simp] theorem Descriptor.noteBufRead_chip (d : Descriptor) (s : State) :
    (d.noteBufRead s).chip = s.chip := by
  unfold Descriptor.noteBufRead; split <;> rfl
@[simp] theorem Descriptor.noteBufRead_bus (d : Descriptor) (s : State) :
    (d.noteBufRead s).bus = s.bus := by
  unfold Descriptor.noteBufRead; split <;> rfl
@[simp] theorem Descriptor.noteBufRead_busTrace (d : Descriptor) (s : State) :
    (d.noteBufRead s).busTrace = s.busTrace := by
  unfold Descriptor.noteBufRead; split <;> rfl
@[simp] theorem Descriptor.noteBufRead_draws (d : Descriptor) (s : State) :
    (d.noteBufRead s).draws = s.draws := by
  unfold Descriptor.noteBufRead; split <;> rfl
@[simp] theorem Descriptor.noteBufRead_agenda (d : Descriptor) (s : State) :
    (d.noteBufRead s).agenda = s.agenda := by
  unfold Descriptor.noteBufRead; split <;> rfl

/-! #### Descriptor.dataIn -/

@[simp] theorem Descriptor.dataIn_cfg (d : Descriptor) (inp : Byte) (s : State) :
    (d.dataIn inp s).cfg = s.cfg := by
  cases h : d.storeIndex s <;> simp [Descriptor.dataIn, h]
@[simp] theorem Descriptor.dataIn_phase (d : Descriptor) (inp : Byte) (s : State) :
    (d.dataIn inp s).phase = s.phase := by
  cases h : d.storeIndex s <;> simp [Descriptor.dataIn, h]
@[simp] theorem Descriptor.dataIn_idx (d : Descriptor) (inp : Byte) (s : State) :
    (d.dataIn inp s).idx = s.idx := by
  cases h : d.storeIndex s <;> simp [Descriptor.dataIn, h]
@[simp] theorem Descriptor.dataIn_lOp (d : Descriptor) (inp : Byte) (s : State) :
    (d.dataIn inp s).lOp = s.lOp := by
  cases h : d.storeIndex s <;> simp [Descriptor.dataIn, h]
@[simp] theorem Descriptor.dataIn_faddr (d : Descriptor) (inp : Byte) (s : State) :
    (d.dataIn inp s).faddr = s.faddr := by
  cases h : d.storeIndex s <;> simp [Descriptor.dataIn, h]
@[simp] theorem Descriptor.dataIn_lLen (d : Descriptor) (inp : Byte) (s : State) :
    (d.dataIn inp s).lLen = s.lLen := by
  cases h : d.storeIndex s <;> simp [Descriptor.dataIn, h]
@[simp] theorem Descriptor.dataIn_lData (d : Descriptor) (inp : Byte) (s : State) :
    (d.dataIn inp s).lData = s.lData := by
  cases h : d.storeIndex s <;> simp [Descriptor.dataIn, h]
@[simp] theorem Descriptor.dataIn_rData (d : Descriptor) (inp : Byte) (s : State) :
    (d.dataIn inp s).rData = if d.latchesRData then inp else s.rData := by
  cases h : d.storeIndex s <;> simp [Descriptor.dataIn, h]
@[simp] theorem Descriptor.dataIn_rFlag (d : Descriptor) (inp : Byte) (s : State) :
    (d.dataIn inp s).rFlag = if d.latchesRFlag then wipFlag inp else s.rFlag := by
  cases h : d.storeIndex s <;> simp [Descriptor.dataIn, h]
@[simp] theorem Descriptor.dataIn_rErr (d : Descriptor) (inp : Byte) (s : State) :
    (d.dataIn inp s).rErr = s.rErr := by
  cases h : d.storeIndex s <;> simp [Descriptor.dataIn, h]
@[simp] theorem Descriptor.dataIn_buf (d : Descriptor) (inp : Byte) (s : State) :
    (d.dataIn inp s).buf = match d.storeIndex s with
      | some i => s.buf.write i.toNat inp
      | none => s.buf := by
  cases h : d.storeIndex s <;> simp [Descriptor.dataIn, h]
@[simp] theorem Descriptor.dataIn_cmd (d : Descriptor) (inp : Byte) (s : State) :
    (d.dataIn inp s).cmd = s.cmd := by
  cases h : d.storeIndex s <;> simp [Descriptor.dataIn, h]
@[simp] theorem Descriptor.dataIn_responses (d : Descriptor) (inp : Byte) (s : State) :
    (d.dataIn inp s).responses = s.responses := by
  cases h : d.storeIndex s <;> simp [Descriptor.dataIn, h]
@[simp] theorem Descriptor.dataIn_trace (d : Descriptor) (inp : Byte) (s : State) :
    (d.dataIn inp s).trace = s.trace := by
  cases h : d.storeIndex s <;> simp [Descriptor.dataIn, h]
@[simp] theorem Descriptor.dataIn_bufLog (d : Descriptor) (inp : Byte) (s : State) :
    (d.dataIn inp s).bufLog = match d.storeIndex s with
      | some i => s.bufLog ++ [.write i inp]
      | none => s.bufLog := by
  cases h : d.storeIndex s <;> simp [Descriptor.dataIn, h]
@[simp] theorem Descriptor.dataIn_link (d : Descriptor) (inp : Byte) (s : State) :
    (d.dataIn inp s).link = s.link := by
  cases h : d.storeIndex s <;> simp [Descriptor.dataIn, h]
@[simp] theorem Descriptor.dataIn_chip (d : Descriptor) (inp : Byte) (s : State) :
    (d.dataIn inp s).chip = s.chip := by
  cases h : d.storeIndex s <;> simp [Descriptor.dataIn, h]
@[simp] theorem Descriptor.dataIn_bus (d : Descriptor) (inp : Byte) (s : State) :
    (d.dataIn inp s).bus = s.bus := by
  cases h : d.storeIndex s <;> simp [Descriptor.dataIn, h]
@[simp] theorem Descriptor.dataIn_busTrace (d : Descriptor) (inp : Byte) (s : State) :
    (d.dataIn inp s).busTrace = s.busTrace := by
  cases h : d.storeIndex s <;> simp [Descriptor.dataIn, h]
@[simp] theorem Descriptor.dataIn_draws (d : Descriptor) (inp : Byte) (s : State) :
    (d.dataIn inp s).draws = s.draws := by
  cases h : d.storeIndex s <;> simp [Descriptor.dataIn, h]
@[simp] theorem Descriptor.dataIn_agenda (d : Descriptor) (inp : Byte) (s : State) :
    (d.dataIn inp s).agenda = s.agenda := by
  cases h : d.storeIndex s <;> simp [Descriptor.dataIn, h]

/-! #### State.foreignByte -/

@[simp] theorem State.foreignByte_cfg (s : State) (out : Byte) :
    (s.foreignByte out).cfg = s.cfg := rfl
@[simp] theorem State.foreignByte_phase (s : State) (out : Byte) :
    (s.foreignByte out).phase = s.phase := rfl
@[simp] theorem State.foreignByte_idx (s : State) (out : Byte) :
    (s.foreignByte out).idx = s.idx := rfl
@[simp] theorem State.foreignByte_lOp (s : State) (out : Byte) :
    (s.foreignByte out).lOp = s.lOp := rfl
@[simp] theorem State.foreignByte_faddr (s : State) (out : Byte) :
    (s.foreignByte out).faddr = s.faddr := rfl
@[simp] theorem State.foreignByte_lLen (s : State) (out : Byte) :
    (s.foreignByte out).lLen = s.lLen := rfl
@[simp] theorem State.foreignByte_lData (s : State) (out : Byte) :
    (s.foreignByte out).lData = s.lData := rfl
@[simp] theorem State.foreignByte_rData (s : State) (out : Byte) :
    (s.foreignByte out).rData = s.rData := rfl
@[simp] theorem State.foreignByte_rFlag (s : State) (out : Byte) :
    (s.foreignByte out).rFlag = s.rFlag := rfl
@[simp] theorem State.foreignByte_rErr (s : State) (out : Byte) :
    (s.foreignByte out).rErr = s.rErr := rfl
@[simp] theorem State.foreignByte_buf (s : State) (out : Byte) :
    (s.foreignByte out).buf = s.buf := rfl
@[simp] theorem State.foreignByte_cmd (s : State) (out : Byte) :
    (s.foreignByte out).cmd = s.cmd := rfl
@[simp] theorem State.foreignByte_responses (s : State) (out : Byte) :
    (s.foreignByte out).responses = s.responses := rfl
@[simp] theorem State.foreignByte_trace (s : State) (out : Byte) :
    (s.foreignByte out).trace = s.trace := rfl
@[simp] theorem State.foreignByte_bufLog (s : State) (out : Byte) :
    (s.foreignByte out).bufLog = s.bufLog := rfl
@[simp] theorem State.foreignByte_link (s : State) (out : Byte) :
    (s.foreignByte out).link = s.link := rfl
@[simp] theorem State.foreignByte_chip (s : State) (out : Byte) :
    (s.foreignByte out).chip = s.chip.receive out := rfl
@[simp] theorem State.foreignByte_bus (s : State) (out : Byte) :
    (s.foreignByte out).bus = s.bus := rfl
@[simp] theorem State.foreignByte_busTrace (s : State) (out : Byte) :
    (s.foreignByte out).busTrace = s.busTrace ++ [.xchg out (s.chip.answer (Config.unspecifiedByte s.draws)) false] := rfl
@[simp] theorem State.foreignByte_draws (s : State) (out : Byte) :
    (s.foreignByte out).draws = s.draws + 1 := rfl
@[simp] theorem State.foreignByte_agenda (s : State) (out : Byte) :
    (s.foreignByte out).agenda = s.agenda := rfl

/-! #### State.foreignBegin -/

@[simp] theorem State.foreignBegin_cfg (s : State) :
    (s.foreignBegin).cfg = s.cfg := rfl
@[simp] theorem State.foreignBegin_phase (s : State) :
    (s.foreignBegin).phase = s.phase := rfl
@[simp] theorem State.foreignBegin_idx (s : State) :
    (s.foreignBegin).idx = s.idx := rfl
@[simp] theorem State.foreignBegin_lOp (s : State) :
    (s.foreignBegin).lOp = s.lOp := rfl
@[simp] theorem State.foreignBegin_faddr (s : State) :
    (s.foreignBegin).faddr = s.faddr := rfl
@[simp] theorem State.foreignBegin_lLen (s : State) :
    (s.foreignBegin).lLen = s.lLen := rfl
@[simp] theorem State.foreignBegin_lData (s : State) :
    (s.foreignBegin).lData = s.lData := rfl
@[simp] theorem State.foreignBegin_rData (s : State) :
    (s.foreignBegin).rData = s.rData := rfl
@[simp] theorem State.foreignBegin_rFlag (s : State) :
    (s.foreignBegin).rFlag = s.rFlag := rfl
@[simp] theorem State.foreignBegin_rErr (s : State) :
    (s.foreignBegin).rErr = s.rErr := rfl
@[simp] theorem State.foreignBegin_buf (s : State) :
    (s.foreignBegin).buf = s.buf := rfl
@[simp] theorem State.foreignBegin_cmd (s : State) :
    (s.foreignBegin).cmd = s.cmd := rfl
@[simp] theorem State.foreignBegin_responses (s : State) :
    (s.foreignBegin).responses = s.responses := rfl
@[simp] theorem State.foreignBegin_trace (s : State) :
    (s.foreignBegin).trace = s.trace := rfl
@[simp] theorem State.foreignBegin_bufLog (s : State) :
    (s.foreignBegin).bufLog = s.bufLog := rfl
@[simp] theorem State.foreignBegin_link (s : State) :
    (s.foreignBegin).link = s.link := rfl
@[simp] theorem State.foreignBegin_chip (s : State) :
    (s.foreignBegin).chip = s.chip.openFrame := rfl
@[simp] theorem State.foreignBegin_bus (s : State) :
    (s.foreignBegin).bus = s.bus.tail := rfl
@[simp] theorem State.foreignBegin_busTrace (s : State) :
    (s.foreignBegin).busTrace = s.busTrace ++ [.frameBegin] := rfl
@[simp] theorem State.foreignBegin_draws (s : State) :
    (s.foreignBegin).draws = s.draws := rfl
@[simp] theorem State.foreignBegin_agenda (s : State) :
    (s.foreignBegin).agenda = s.agenda := rfl

/-! #### State.foreignEnd -/

@[simp] theorem State.foreignEnd_cfg (s : State) :
    (s.foreignEnd).cfg = s.cfg := rfl
@[simp] theorem State.foreignEnd_phase (s : State) :
    (s.foreignEnd).phase = s.phase := rfl
@[simp] theorem State.foreignEnd_idx (s : State) :
    (s.foreignEnd).idx = s.idx := rfl
@[simp] theorem State.foreignEnd_lOp (s : State) :
    (s.foreignEnd).lOp = s.lOp := rfl
@[simp] theorem State.foreignEnd_faddr (s : State) :
    (s.foreignEnd).faddr = s.faddr := rfl
@[simp] theorem State.foreignEnd_lLen (s : State) :
    (s.foreignEnd).lLen = s.lLen := rfl
@[simp] theorem State.foreignEnd_lData (s : State) :
    (s.foreignEnd).lData = s.lData := rfl
@[simp] theorem State.foreignEnd_rData (s : State) :
    (s.foreignEnd).rData = s.rData := rfl
@[simp] theorem State.foreignEnd_rFlag (s : State) :
    (s.foreignEnd).rFlag = s.rFlag := rfl
@[simp] theorem State.foreignEnd_rErr (s : State) :
    (s.foreignEnd).rErr = s.rErr := rfl
@[simp] theorem State.foreignEnd_buf (s : State) :
    (s.foreignEnd).buf = s.buf := rfl
@[simp] theorem State.foreignEnd_cmd (s : State) :
    (s.foreignEnd).cmd = s.cmd := rfl
@[simp] theorem State.foreignEnd_responses (s : State) :
    (s.foreignEnd).responses = s.responses := rfl
@[simp] theorem State.foreignEnd_trace (s : State) :
    (s.foreignEnd).trace = s.trace := rfl
@[simp] theorem State.foreignEnd_bufLog (s : State) :
    (s.foreignEnd).bufLog = s.bufLog := rfl
@[simp] theorem State.foreignEnd_link (s : State) :
    (s.foreignEnd).link = s.link := rfl
@[simp] theorem State.foreignEnd_chip (s : State) :
    (s.foreignEnd).chip = s.chip.frameEnd := rfl
@[simp] theorem State.foreignEnd_bus (s : State) :
    (s.foreignEnd).bus = s.bus := rfl
@[simp] theorem State.foreignEnd_busTrace (s : State) :
    (s.foreignEnd).busTrace = s.busTrace ++ [.frameEnd] := rfl
@[simp] theorem State.foreignEnd_draws (s : State) :
    (s.foreignEnd).draws = s.draws := rfl
@[simp] theorem State.foreignEnd_agenda (s : State) :
    (s.foreignEnd).agenda = s.agenda := rfl

/-! #### State.cutFrame -/

@[simp] theorem State.cutFrame_cfg (s : State) :
    (s.cutFrame).cfg = s.cfg := by
  unfold State.cutFrame; split <;> rfl
@[simp] theorem State.cutFrame_phase (s : State) :
    (s.cutFrame).phase = s.phase := by
  unfold State.cutFrame; split <;> rfl
@[simp] theorem State.cutFrame_idx (s : State) :
    (s.cutFrame).idx = s.idx := by
  unfold State.cutFrame; split <;> rfl
@[simp] theorem State.cutFrame_lOp (s : State) :
    (s.cutFrame).lOp = s.lOp := by
  unfold State.cutFrame; split <;> rfl
@[simp] theorem State.cutFrame_faddr (s : State) :
    (s.cutFrame).faddr = s.faddr := by
  unfold State.cutFrame; split <;> rfl
@[simp] theorem State.cutFrame_lLen (s : State) :
    (s.cutFrame).lLen = s.lLen := by
  unfold State.cutFrame; split <;> rfl
@[simp] theorem State.cutFrame_lData (s : State) :
    (s.cutFrame).lData = s.lData := by
  unfold State.cutFrame; split <;> rfl
@[simp] theorem State.cutFrame_rData (s : State) :
    (s.cutFrame).rData = s.rData := by
  unfold State.cutFrame; split <;> rfl
@[simp] theorem State.cutFrame_rFlag (s : State) :
    (s.cutFrame).rFlag = s.rFlag := by
  unfold State.cutFrame; split <;> rfl
@[simp] theorem State.cutFrame_rErr (s : State) :
    (s.cutFrame).rErr = s.rErr := by
  unfold State.cutFrame; split <;> rfl
@[simp] theorem State.cutFrame_buf (s : State) :
    (s.cutFrame).buf = s.buf := by
  unfold State.cutFrame; split <;> rfl
@[simp] theorem State.cutFrame_cmd (s : State) :
    (s.cutFrame).cmd = s.cmd := by
  unfold State.cutFrame; split <;> rfl
@[simp] theorem State.cutFrame_responses (s : State) :
    (s.cutFrame).responses = s.responses := by
  unfold State.cutFrame; split <;> rfl
@[simp] theorem State.cutFrame_trace (s : State) :
    (s.cutFrame).trace = if s.frameActive then s.trace ++ [.frameEnd] else s.trace := by
  unfold State.cutFrame; split <;> simp_all
@[simp] theorem State.cutFrame_bufLog (s : State) :
    (s.cutFrame).bufLog = s.bufLog := by
  unfold State.cutFrame; split <;> rfl
@[simp] theorem State.cutFrame_link (s : State) :
    (s.cutFrame).link = s.link := by
  unfold State.cutFrame; split <;> rfl
@[simp] theorem State.cutFrame_chip (s : State) :
    (s.cutFrame).chip = if s.frameActive ∧ s.link.attached then
        (if Config.cutFrameTakesEffect s.draws then s.chip.frameEnd else s.chip.dropFrame)
      else s.chip := by
  unfold State.cutFrame; split <;> simp_all
@[simp] theorem State.cutFrame_bus (s : State) :
    (s.cutFrame).bus = s.bus := by
  unfold State.cutFrame; split <;> rfl
@[simp] theorem State.cutFrame_busTrace (s : State) :
    (s.cutFrame).busTrace = s.busTrace := by
  unfold State.cutFrame; split <;> rfl
@[simp] theorem State.cutFrame_draws (s : State) :
    (s.cutFrame).draws = if s.frameActive then s.draws + 1 else s.draws := by
  unfold State.cutFrame; split <;> simp_all
@[simp] theorem State.cutFrame_agenda (s : State) :
    (s.cutFrame).agenda = s.agenda := by
  unfold State.cutFrame; split <;> rfl

/-! #### State.resetBlock -/

@[simp] theorem State.resetBlock_cfg (s : State) :
    (s.resetBlock).cfg = s.cfg := by
  simp [State.resetBlock]
@[simp] theorem State.resetBlock_phase (s : State) :
    (s.resetBlock).phase = .idle := by
  simp [State.resetBlock]
@[simp] theorem State.resetBlock_idx (s : State) :
    (s.resetBlock).idx = 0 := by
  simp [State.resetBlock]
@[simp] theorem State.resetBlock_lOp (s : State) :
    (s.resetBlock).lOp = 0 := by
  simp [State.resetBlock]
@[simp] theorem State.resetBlock_faddr (s : State) :
    (s.resetBlock).faddr = 0 := by
  simp [State.resetBlock]
@[simp] theorem State.resetBlock_lLen (s : State) :
    (s.resetBlock).lLen = 0 := by
  simp [State.resetBlock]
@[simp] theorem State.resetBlock_lData (s : State) :
    (s.resetBlock).lData = 0 := by
  simp [State.resetBlock]
@[simp] theorem State.resetBlock_rData (s : State) :
    (s.resetBlock).rData = 0 := by
  simp [State.resetBlock]
@[simp] theorem State.resetBlock_rFlag (s : State) :
    (s.resetBlock).rFlag = false := by
  simp [State.resetBlock]
@[simp] theorem State.resetBlock_rErr (s : State) :
    (s.resetBlock).rErr = .noError := by
  simp [State.resetBlock]
@[simp] theorem State.resetBlock_buf (s : State) :
    (s.resetBlock).buf = s.buf := by
  simp [State.resetBlock]
@[simp] theorem State.resetBlock_cmd (s : State) :
    (s.resetBlock).cmd = s.cmd := by
  simp [State.resetBlock]
@[simp] theorem State.resetBlock_responses (s : State) :
    (s.resetBlock).responses = s.responses := by
  simp [State.resetBlock]
@[simp] theorem State.resetBlock_trace (s : State) :
    (s.resetBlock).trace = if s.frameActive then s.trace ++ [.frameEnd] else s.trace := by
  simp [State.resetBlock]
@[simp] theorem State.resetBlock_bufLog (s : State) :
    (s.resetBlock).bufLog = s.bufLog := by
  simp [State.resetBlock]
@[simp] theorem State.resetBlock_link (s : State) :
    (s.resetBlock).link = s.link := by
  simp [State.resetBlock]
@[simp] theorem State.resetBlock_chip (s : State) :
    (s.resetBlock).chip = if s.frameActive ∧ s.link.attached then
        (if Config.cutFrameTakesEffect s.draws then s.chip.frameEnd else s.chip.dropFrame)
      else s.chip := by
  simp [State.resetBlock]
@[simp] theorem State.resetBlock_bus (s : State) :
    (s.resetBlock).bus = s.bus := by
  simp [State.resetBlock]
@[simp] theorem State.resetBlock_busTrace (s : State) :
    (s.resetBlock).busTrace = s.busTrace := by
  simp [State.resetBlock]
@[simp] theorem State.resetBlock_draws (s : State) :
    (s.resetBlock).draws = if s.frameActive then s.draws + 1 else s.draws := by
  simp [State.resetBlock]
@[simp] theorem State.resetBlock_agenda (s : State) :
    (s.resetBlock).agenda = s.agenda := by
  simp [State.resetBlock]

end Sys2Proof.Machine
end

