-- ==== Sys2Proof/Laws/Ops.lean ====
section
/-! SUPPORT. For each shared operation, once, everything it can do: the lemmas later proofs cite instead of unfolding
it. -/

namespace Sys2Proof.Machine

/-! ### The transport port -/

/-- An answered exchange changes the link, the chip behind it, the draw counter and the trace, nothing else; the chip
at most receives the byte. -/
theorem State.xchg_spec {s : State} {out : Byte} {x : Exchanged} (h : s.xchg out = some x) :
    x.after = { s with
      link := x.after.link
      chip := x.after.chip
      draws := x.after.draws
      trace := s.trace ++ [.xchg out x.inp x.fail] } ∧
    (x.after.chip = s.chip ∨ x.after.chip = s.chip.receive out) ∧
    (x.after.link.attached = s.link.attached) ∧
    (s.link.attached = false → x.after.chip = s.chip ∧ x.after.draws = s.draws) ∧
    (x.fail = true → s.cfg.tCanFail = true) := by
  unfold State.xchg at h
  split at h
  · cases h
  · rename_i hl
    cases h
    refine ⟨rfl, Or.inl rfl, by simp [hl, Link.attached], fun _ => ⟨rfl, rfl⟩, ?_⟩
    simp
  · rename_i hl
    cases h
    refine ⟨rfl, ?_, by simp [hl, Link.attached], ?_, ?_⟩
    · dsimp only
      split
      · exact Or.inr rfl
      · exact Or.inl rfl
    · simp [hl, Link.attached]
    · simp

/-- The scripted transport gives its next answer, the failure bit tied to 0 with T_CAN_FAIL = 0. -/
theorem State.xchg_scripted {s : State} {a : Answer} {as : List Answer} (h : s.link = .scripted (a :: as))
    (out : Byte) :
    s.xchg out = some
      { inp := a.inp
        fail := a.fail && s.cfg.tCanFail
        after :=
          { s with link := .scripted as, trace := s.trace ++ [.xchg out a.inp (a.fail && s.cfg.tCanFail)] } } := by
  simp [State.xchg, h]

/-- A scripted transport with no answer left does not answer. -/
theorem State.xchg_silent {s : State} (h : s.link = .scripted []) (out : Byte) : s.xchg out = none := by
  simp [State.xchg, h]

/-- The responder with no failure to inject answers from its state and receives the byte. -/
theorem State.xchg_responder {s : State} (h : s.link = .responder []) (out : Byte) :
    s.xchg out = some
      { inp := s.chip.answer (Config.unspecifiedByte s.draws)
        fail := false
        after :=
          { s with
            link := .responder []
            chip := s.chip.receive out
            draws := s.draws + 1
            trace := s.trace ++ [.xchg out (s.chip.answer (Config.unspecifiedByte s.draws)) false] } } := by
  simp [State.xchg, h]

/-- A returned TInit changes the link and the trace, nothing else. -/
theorem State.transportInit_spec {s t : State} (h : s.transportInit = some t) :
    t = { s with link := t.link, trace := s.trace ++ [.tInit] } ∧ t.link.attached = s.link.attached := by
  unfold State.transportInit at h
  split at h
  · cases h
  · rename_i hl; cases h; exact ⟨rfl, by simp [hl, Link.attached]⟩
  · cases h; exact ⟨rfl, rfl⟩

/-! ### The sequencer -/

/-- An exchange step waits, fails, or ends normally; it never stops the machine. -/
theorem State.exchange_cases (s pre : State) (out : Byte) (next : Byte → State → State) :
    (pre.xchg out = none ∧ s.exchange pre out next = .next s) ∨
    (∃ x, pre.xchg out = some x ∧ x.fail = true ∧
      s.exchange pre out next = .next (x.after.raise .transportFailure)) ∨
    (∃ x, pre.xchg out = some x ∧ x.fail = false ∧ s.exchange pre out next = .next (next x.inp x.after)) := by
  unfold State.exchange
  cases hx : pre.xchg out with
  | none => exact Or.inl ⟨rfl, rfl⟩
  | some x =>
    cases hf : x.fail with
    | true => exact Or.inr (Or.inl ⟨x, rfl, hf, by simp [hf]⟩)
    | false => exact Or.inr (Or.inr ⟨x, rfl, hf, by simp [hf]⟩)

/-- An exchange step always gives a next state. -/
theorem State.exchange_next (s pre : State) (out : Byte) (next : Byte → State → State) :
    ∃ t, s.exchange pre out next = .next t := by
  rcases s.exchange_cases pre out next with ⟨-, h⟩ | ⟨x, -, -, h⟩ | ⟨x, -, -, h⟩ <;> exact ⟨_, h⟩

/-- What a command does: issue when idle, its next step when it is in progress, nothing when another is. -/
theorem Descriptor.execute_cases (d : Descriptor) (p : Payload) (s : State) :
    (s.phase = .idle ∧ d.execute p s = .next (d.issue p s)) ∨
    (s.phase ≠ .idle ∧ s.lOp = d.op ∧ d.execute p s = d.advance s) ∨
    (s.phase ≠ .idle ∧ s.lOp ≠ d.op ∧ d.execute p s = .next s) := by
  unfold Descriptor.execute
  by_cases hp : s.phase = .idle
  · exact Or.inl ⟨hp, by simp [hp]⟩
  · by_cases ho : s.lOp = d.op
    · exact Or.inr (Or.inl ⟨hp, ho, by simp [hp, ho]⟩)
    · exact Or.inr (Or.inr ⟨hp, ho, by simp [hp, ho]⟩)

/-- An issue is refused with the first check that fails, or accepted. -/
theorem Descriptor.issue_cases (d : Descriptor) (p : Payload) (s : State) :
    (∃ e, d.issueError s.cfg.checkEn p = some e ∧ d.issue p s = (s.beginIssue d.op).raise e) ∨
    (d.issueError s.cfg.checkEn p = none ∧ d.issue p s = d.accept p (s.beginIssue d.op)) := by
  unfold Descriptor.issue
  cases d.issueError s.cfg.checkEn p with
  | some e => exact Or.inl ⟨e, rfl, rfl⟩
  | none => exact Or.inr ⟨rfl, rfl⟩

/-- An issue check can fail in two ways only. -/
theorem Descriptor.issueError_spec {d : Descriptor} {c : Bool} {p : Payload} {e : ErrorCode}
    (h : d.issueError c p = some e) :
    c = true ∧
      ((e = .addressOutOfRange ∧ d.outOfRange p.addr = true) ∨
        (e = .pageBoundaryCrossed ∧ d.outOfRange p.addr = false ∧ d.crossesPage p = true)) := by
  unfold Descriptor.issueError at h
  cases c <;> cases hr : d.outOfRange p.addr <;> cases hc : d.crossesPage p <;> simp_all

/-! ### Dispatch -/

/-- A command code and its row: `descriptor` finds each row under its own code. -/
theorem descriptor_op {op : OpCode} {d : Descriptor} (h : descriptor op = some d) : d.op = op := by
  revert h
  revert op
  intro op h
  have : ∀ op : OpCode, ∀ d, descriptor op = some d → d.op = op := by
    intro op
    have h16 := op.isLt
    obtain ⟨n, hn⟩ := op
    interval_cases n <;> intro d hd <;> simp_all [descriptor, rowInit, rowWriteByte, rowWriteBuffer, rowReadByte,
      rowReadBuffer, rowGetStatus, rowGetWip, rowSetWriteEnable, rowReadIdPage, rowWriteIdPage, rowReadLockStatus,
      rowLockId, rowWriteDisable, rowWriteStatus] <;> (subst hd; rfl)
  exact this op d h

/-- A command that decodes runs through the row of its code, and a code without a row does not decode. -/
theorem decodeCommand_row (c : Command) :
    (∃ i d, decodeCommand c = .ok i ∧ descriptor c.op = some d ∧ ∀ s, exec i s = d.execute c.payload s) ∨
    (decodeCommand c = .error (.reservedCommand c.op) ∧ descriptor c.op = none) := by
  obtain ⟨op, p⟩ := c
  have h16 := op.isLt
  obtain ⟨n, hn⟩ := op
  interval_cases n
  all_goals first
    | exact Or.inl ⟨_, _, rfl, rfl, fun _ => rfl⟩
    | exact Or.inr ⟨rfl, rfl⟩

/-- While a command is in progress the block's turn is its next step. -/
theorem move_busy {s : State} {d : Descriptor} (hp : s.phase ≠ .idle) (hd : descriptor s.lOp = some d) :
    move s = d.advance s := by
  have hop := descriptor_op hd
  rcases decodeCommand_row s.latched with ⟨i, d', hi, hd', he⟩ | ⟨-, hn⟩
  · have : d' = d := by
      have := hd'.symm.trans hd
      simpa using this
    subst this
    have hf : s.fetch = .instr i := by
      unfold State.fetch
      cases hph : s.phase <;> simp_all
    simp only [move, hf, he, Descriptor.execute, hp, hop, if_true, if_false]
  · simp [State.latched, hd] at hn

/-- A reserved latched code stops the machine. -/
theorem move_unreachable {s : State} (hp : s.phase ≠ .idle) (hd : descriptor s.lOp = none) :
    move s = .fault .unreachablePosition := by
  rcases decodeCommand_row s.latched with ⟨i, d', -, hd', -⟩ | ⟨hi, -⟩
  · simp [State.latched, hd] at hd'
  · have hf : s.fetch = .unreachable := by
      unfold State.fetch
      cases hph : s.phase <;> simp_all
    simp [move, hf]

/-- With the block idle and no frame waiting, the block's turn is the issue of the offered command. -/
theorem move_idle_command {s : State} {c : Command} {cs : List Command} {d : Descriptor} (hp : s.phase = .idle)
    (hb : s.bus = []) (hc : s.cmd = c :: cs) (hd : descriptor c.op = some d) :
    move s = .next (d.issue c.payload s) := by
  rcases decodeCommand_row c with ⟨i, d', hi, hd', he⟩ | ⟨-, hn⟩
  · have : d' = d := by
      have := hd'.symm.trans hd
      simpa using this
    subst this
    have hf : s.fetch = .instr i := by simp [State.fetch, hp, hb, hc, hi]
    simp only [move, hf, he, Descriptor.execute, hp, if_true]
  · simp [hd] at hn

/-- With nothing offered and no frame waiting, an idle block waits. -/
theorem move_idle_nothing {s : State} (hp : s.phase = .idle) (hb : s.bus = []) (hc : s.cmd = []) :
    move s = .next s := by
  simp [move, State.fetch, hp, hb, hc]

/-- A waiting frame, whether or not it is a row of the table, is sent while the block is idle. -/
theorem move_idle_frame {s : State} {f : List Byte} {fs : List (List Byte)} (hp : s.phase = .idle)
    (hb : s.bus = f :: fs) {i : Instr} (hi : decodeFrame f = .ok i) : move s = exec i s := by
  simp [move, State.fetch, hp, hb, hi]

/-- A step is the block's turn when no event stands before it. -/
theorem step_turn {s : State} (h : s.agenda = []) : step s = move s := by
  simp [step, h]

/-! ### The chip -/

@[simp] theorem Chip.openFrame_mem (c : Chip) : c.openFrame.mem = c.mem := rfl
@[simp] theorem Chip.openFrame_idp (c : Chip) : c.openFrame.idp = c.idp := rfl
@[simp] theorem Chip.openFrame_sr (c : Chip) : c.openFrame.sr = c.sr := rfl
@[simp] theorem Chip.openFrame_locked (c : Chip) : c.openFrame.locked = c.locked := rfl
@[simp] theorem Chip.openFrame_rx (c : Chip) : c.openFrame.rx = some [] := rfl
@[simp] theorem Chip.receive_mem (c : Chip) (b : Byte) : (c.receive b).mem = c.mem := rfl
@[simp] theorem Chip.receive_idp (c : Chip) (b : Byte) : (c.receive b).idp = c.idp := rfl
@[simp] theorem Chip.receive_sr (c : Chip) (b : Byte) : (c.receive b).sr = c.sr := rfl
@[simp] theorem Chip.receive_locked (c : Chip) (b : Byte) : (c.receive b).locked = c.locked := rfl
@[simp] theorem Chip.receive_rx (c : Chip) (b : Byte) : (c.receive b).rx = c.rx.map (· ++ [b]) := rfl
@[simp] theorem Chip.dropFrame_mem (c : Chip) : c.dropFrame.mem = c.mem := rfl
@[simp] theorem Chip.dropFrame_idp (c : Chip) : c.dropFrame.idp = c.idp := rfl
@[simp] theorem Chip.dropFrame_sr (c : Chip) : c.dropFrame.sr = c.sr := rfl
@[simp] theorem Chip.dropFrame_locked (c : Chip) : c.dropFrame.locked = c.locked := rfl
@[simp] theorem Chip.startCycle_mem (c : Chip) : c.startCycle.mem = c.mem := rfl
@[simp] theorem Chip.startCycle_idp (c : Chip) : c.startCycle.idp = c.idp := rfl
@[simp] theorem Chip.startCycle_sr (c : Chip) : c.startCycle.sr = c.sr ||| 0x01 := rfl
@[simp] theorem Chip.startCycle_locked (c : Chip) : c.startCycle.locked = c.locked := rfl

/-- The whole of a foreign frame's bytes reaches the open frame of the chip, in order. -/
theorem State.foreignBytes_chip (s : State) (bytes : List Byte) :
    (s.foreignBytes bytes).chip = { s.chip with rx := s.chip.rx.map (· ++ bytes) } := by
  induction bytes generalizing s with
  | nil => cases h : s.chip.rx <;> simp [State.foreignBytes, ← h]
  | cons b bs ih =>
    have := ih (s.foreignByte b)
    unfold State.foreignBytes at this ⊢
    rw [List.foldl_cons, this]
    cases h : s.chip.rx <;> simp [Chip.receive, h]

/-- What a foreign frame's bytes leave alone: everything but the chip, the draw counter and the bus trace. -/
theorem State.foreignBytes_rest (s : State) (bytes : List Byte) :
    s.foreignBytes bytes = { s with
      chip := (s.foreignBytes bytes).chip
      draws := s.draws + bytes.length
      busTrace := (s.foreignBytes bytes).busTrace } := by
  induction bytes generalizing s with
  | nil => rfl
  | cons b bs ih =>
    have := ih (s.foreignByte b)
    unfold State.foreignBytes at this ⊢
    rw [List.foldl_cons, this]
    simp [Nat.add_assoc, Nat.add_comm 1, State.foreignByte]

/-- A foreign frame sent while no frame is open: the chip receives all of it and acts on it. -/
theorem State.foreignFrame_chip {s : State} (h : s.frameActive = false) (bytes : List Byte) :
    (s.foreignFrame bytes).chip = { ({ s.chip with rx := some bytes } : Chip).effect bytes with rx := none } := by
  simp [State.foreignFrame, h, State.foreignBytes_chip, Chip.frameEnd, Chip.openFrame]

/-- What a foreign frame leaves alone: everything but the chip, the waiting frames, the draw counter and the bus
trace. -/
theorem State.foreignFrame_rest {s : State} (h : s.frameActive = false) (bytes : List Byte) :
    s.foreignFrame bytes = { s with
      chip := (s.foreignFrame bytes).chip
      bus := s.bus.tail
      draws := s.draws + bytes.length
      busTrace := (s.foreignFrame bytes).busTrace } := by
  have hr := s.foreignBegin.foreignBytes_rest bytes
  simp only [State.foreignFrame, h, Bool.false_eq_true, if_false]
  rw [hr]
  rfl

/-- While a frame is open another master keeps off the bus. -/
theorem State.foreignFrame_waits {s : State} (h : s.frameActive = true) (bytes : List Byte) :
    s.foreignFrame bytes = s := by
  simp [State.foreignFrame, h]

/-- MEM changes only by an accepted WRITE frame, and then by its run of bytes (R86). -/
theorem Chip.effect_mem (c : Chip) (rx : List Byte) :
    (c.effect rx).mem = c.mem ∨
    ∃ hi mid lo ds, rx = 0x02 :: hi :: mid :: lo :: ds ∧ c.wel = true ∧ c.wip = false ∧
      (c.effect rx).mem = c.mem.writeRun (mainWriteAddr (addrOfBytes hi mid lo)) 0 ds := by
  unfold Chip.effect
  split
  · exact Or.inl rfl
  rename_i hwip
  cases rx with
  | nil => exact Or.inl rfl
  | cons op rest =>
    dsimp only
    split
    · split <;> exact Or.inl rfl
    · split <;> exact Or.inl rfl
    · split
      · unfold Chip.effectWrsr; split <;> exact Or.inl rfl
      · exact Or.inl rfl
    · rename_i hop
      split
      · rename_i hi mid lo ds
        unfold Chip.effectWrite
        split
        · rename_i hacc
          refine Or.inr ⟨hi, mid, lo, ds, ?_, ?_, by simpa using hwip, rfl⟩
          · congr 1
            exact BitVec.eq_of_toNat_eq hop
          · have := hacc.2
            simp [Chip.accepts] at this
            exact this.1
        · exact Or.inl rfl
      · exact Or.inl rfl
    · split
      · split
        · unfold Chip.effectLockId
          split
          · split <;> exact Or.inl rfl
          · exact Or.inl rfl
        · unfold Chip.effectWriteId; split <;> exact Or.inl rfl
      · exact Or.inl rfl
    · exact Or.inl rfl

/-- IDP changes only by an accepted WRITE_ID frame of an unlocked page, and then by its run of bytes (R88). -/
theorem Chip.effect_idp (c : Chip) (rx : List Byte) :
    (c.effect rx).idp = c.idp ∨
    ∃ hi mid lo ds, rx = 0x82 :: hi :: mid :: lo :: ds ∧ c.locked = false ∧ c.wel = true ∧ c.wip = false ∧
      (c.effect rx).idp = c.idp.writeRun (idWriteAddr (addrOfBytes hi mid lo)) 0 ds := by
  unfold Chip.effect
  split
  · exact Or.inl rfl
  rename_i hwip
  cases rx with
  | nil => exact Or.inl rfl
  | cons op rest =>
    dsimp only
    split
    · split <;> exact Or.inl rfl
    · split <;> exact Or.inl rfl
    · split
      · unfold Chip.effectWrsr; split <;> exact Or.inl rfl
      · exact Or.inl rfl
    · split
      · unfold Chip.effectWrite; split <;> exact Or.inl rfl
      · exact Or.inl rfl
    · rename_i hop
      split
      · rename_i hi mid lo ds
        split
        · unfold Chip.effectLockId
          split
          · split <;> exact Or.inl rfl
          · exact Or.inl rfl
        · unfold Chip.effectWriteId
          split
          · rename_i hacc
            refine Or.inr ⟨hi, mid, lo, ds, ?_, hacc.2.1, ?_, by simpa using hwip, rfl⟩
            · congr 1
              exact BitVec.eq_of_toNat_eq hop
            · have := hacc.2.2
              simp [Chip.accepts] at this
              exact this.1
          · exact Or.inl rfl
      · exact Or.inl rfl
    · exact Or.inl rfl

/-- A frame that only reads has no effect when it ends, however long it is (R87, R88). -/
theorem Chip.effect_read (c : Chip) {op : Byte} (rest : List Byte) (h : op = 0x03 ∨ op = 0x05 ∨ op = 0x83) :
    c.effect (op :: rest) = c := by
  unfold Chip.effect
  split
  · rfl
  · rcases h with rfl | rfl | rfl <;> rfl

/-- A step is the block's move, or one event of another agent. -/
theorem step_cases (s : State) :
    (s.agenda = [] ∧ step s = move s) ∨
    (∃ es, s.agenda = .turn :: es ∧ step s = move { s with agenda := es }) ∨
    (∃ e es, s.agenda = e :: es ∧ e ≠ .turn ∧ step s = .next (environment e { s with agenda := es })) := by
  unfold step
  split
  · exact Or.inl ⟨by assumption, rfl⟩
  · exact Or.inr (Or.inl ⟨_, by assumption, rfl⟩)
  · rename_i e es h ha
    exact Or.inr (Or.inr ⟨e, es, ha, h, rfl⟩)

/-- FrameEnd leaves no frame open, and acts as the received bytes say. -/
theorem Chip.frameEnd_spec (c : Chip) :
    (c.rx = none ∧ c.frameEnd = c) ∨ (∃ rx, c.rx = some rx ∧ c.frameEnd = { c.effect rx with rx := none }) := by
  unfold Chip.frameEnd
  cases h : c.rx with
  | none => exact Or.inl ⟨rfl, rfl⟩
  | some rx => exact Or.inr ⟨rx, rfl, rfl⟩

/-- Every address of a WRITE lies in MAIN (R61). -/
theorem mainWriteAddr_lt (a : FrameAddr) (i : Nat) : mainWriteAddr a i < Config.capacity := by
  unfold mainWriteAddr
  have h1 : a.toNat % Config.capacity < Config.capacity := Nat.mod_lt _ (by decide)
  have h2 : (a.toNat % Config.pageSize + i) % Config.pageSize < Config.pageSize := Nat.mod_lt _ (by decide)
  simp only [Config.capacity, Config.pageSize, Config.pageCount] at h1 h2 ⊢
  omega

/-- Every address of a WRITE_ID lies in the ID page (R62). -/
theorem idWriteAddr_lt (a : FrameAddr) (i : Nat) : idWriteAddr a i < Config.idPageSize :=
  Nat.mod_lt _ (by decide)

end Sys2Proof.Machine
end

