-- ==== Sys2Proof/Laws/PerInstr.lean ====
section
/-! SUPPORT. One family over the instructions: every encoding follows its row of spec/opcode_table.json. -/

namespace Sys2Proof.Laws.FollowsTheTableRow

/-- The row's `match` and `mask`: over bits 3:0 of the command word, or over the 32-bit frame header (R102, R105). -/
def tableRow : Instr → Nat × Nat
  | .init _ => (0x0, 0xF)
  | .writeByte _ => (0x1, 0xF)
  | .writeBuffer _ => (0x2, 0xF)
  | .readByte _ => (0x3, 0xF)
  | .readBuffer _ => (0x4, 0xF)
  | .getStatus _ => (0x5, 0xF)
  | .getWip _ => (0x6, 0xF)
  | .setWriteEnable _ => (0x7, 0xF)
  | .readIdPage _ => (0x8, 0xF)
  | .writeIdPage _ => (0x9, 0xF)
  | .readLockStatus _ => (0xA, 0xF)
  | .lockId _ => (0xB, 0xF)
  | .writeDisable _ => (0xC, 0xF)
  | .writeStatus _ => (0xD, 0xF)
  | .wireWren => (0x06000000, 0xFF000000)
  | .wireWrdi => (0x04000000, 0xFF000000)
  | .wireRdsr => (0x05000000, 0xFF000000)
  | .wireWrsr _ => (0x01000000, 0xFF000000)
  | .wireRead _ _ => (0x03000000, 0xFF000000)
  | .wireWrite _ _ => (0x02000000, 0xFF000000)
  | .wireReadId _ _ => (0x83000000, 0xFFFFFF00)
  | .wireWriteId _ _ => (0x82000000, 0xFFFFFF00)
  | .wireReadLockStatus => (0x83000400, 0xFFFFFFFF)
  | .wireLockId _ => (0x82000400, 0xFFFFFFFF)

/-- The frame header {byte 0, byte 1, byte 2, byte 3}, byte 0 in bits 31:24; a byte the frame does not have is 0. -/
def headerOf (bytes : List Byte) : BitVec 32 :=
  bytes.getD 0 0 ++ bytes.getD 1 0 ++ bytes.getD 2 0 ++ bytes.getD 3 0

/-- The bits the row fixes are as the row has them. -/
def Statement (i : Instr) : Prop :=
  match encode i with
  | .command w => w &&& BitVec.ofNat Config.commandW (tableRow i).2 = BitVec.ofNat Config.commandW (tableRow i).1
  | .frame bytes => headerOf bytes &&& BitVec.ofNat 32 (tableRow i).2 = BitVec.ofNat 32 (tableRow i).1

/-- The low four bits of a command word are its code. -/
theorem toWord_and_op (op : OpCode) (p : Payload) :
    Command.toWord ⟨op, p⟩ &&& BitVec.ofNat Config.commandW 0xF = op.setWidth Config.commandW := by
  apply BitVec.eq_of_toNat_eq
  have h4 : (0xF : Nat) = 2 ^ 4 - 1 := rfl
  have hop := op.isLt
  simp only [Command.toWord, BitVec.toNat_and, BitVec.toNat_append, BitVec.toNat_ofNat, BitVec.toNat_setWidth]
  rw [Nat.mod_eq_of_lt (show 0xF < 2 ^ Config.commandW by decide), h4, Nat.and_two_pow_sub_one_eq_mod,
    Nat.mod_eq_of_lt (show op.toNat < 2 ^ Config.commandW from lt_of_lt_of_le hop (by decide))]
  rw [← Nat.shiftLeft_add_eq_or_of_lt hop, Nat.shiftLeft_eq]
  omega

theorem of_code (op : OpCode) (p : Payload) (m : Nat) (h : op.setWidth Config.commandW = BitVec.ofNat Config.commandW m) :
    Command.toWord ⟨op, p⟩ &&& BitVec.ofNat Config.commandW 0xF = BitVec.ofNat Config.commandW m :=
  (toWord_and_op op p).trans h

theorem init (p : Payload) : Statement (.init p) := of_code _ p 0x0 (by decide)
theorem writeByte (p : Payload) : Statement (.writeByte p) := of_code _ p 0x1 (by decide)
theorem writeBuffer (p : Payload) : Statement (.writeBuffer p) := of_code _ p 0x2 (by decide)
theorem readByte (p : Payload) : Statement (.readByte p) := of_code _ p 0x3 (by decide)
theorem readBuffer (p : Payload) : Statement (.readBuffer p) := of_code _ p 0x4 (by decide)
theorem getStatus (p : Payload) : Statement (.getStatus p) := of_code _ p 0x5 (by decide)
theorem getWip (p : Payload) : Statement (.getWip p) := of_code _ p 0x6 (by decide)
theorem setWriteEnable (p : Payload) : Statement (.setWriteEnable p) := of_code _ p 0x7 (by decide)
theorem readIdPage (p : Payload) : Statement (.readIdPage p) := of_code _ p 0x8 (by decide)
theorem writeIdPage (p : Payload) : Statement (.writeIdPage p) := of_code _ p 0x9 (by decide)
theorem readLockStatus (p : Payload) : Statement (.readLockStatus p) := of_code _ p 0xA (by decide)
theorem lockId (p : Payload) : Statement (.lockId p) := of_code _ p 0xB (by decide)
theorem writeDisable (p : Payload) : Statement (.writeDisable p) := of_code _ p 0xC (by decide)
theorem writeStatus (p : Payload) : Statement (.writeStatus p) := of_code _ p 0xD (by decide)

/-- The first byte of a header, whatever the other three are. -/
theorem header_and_opcode (b0 b1 b2 b3 : Byte) :
    (b0 ++ b1 ++ b2 ++ b3 : BitVec 32) &&& 0xFF000000#32 = (b0 ++ (0 : BitVec 24) : BitVec 32) := by
  apply BitVec.eq_of_getLsbD_eq
  intro i (hi : i < 32)
  simp only [BitVec.getLsbD_and, BitVec.getLsbD_append]
  interval_cases i <;> simp

/-- The first three bytes of a header, whatever the fourth is. -/
theorem header_and_high (b0 b1 b2 b3 : Byte) :
    (b0 ++ b1 ++ b2 ++ b3 : BitVec 32) &&& 0xFFFFFF00#32 = (b0 ++ b1 ++ b2 ++ (0 : BitVec 8) : BitVec 32) := by
  apply BitVec.eq_of_getLsbD_eq
  intro i (hi : i < 32)
  simp only [BitVec.getLsbD_and, BitVec.getLsbD_append]
  interval_cases i <;> simp

theorem wireWren : Statement .wireWren := rfl
theorem wireWrdi : Statement .wireWrdi := rfl
theorem wireRdsr : Statement .wireRdsr := rfl
theorem wireWrsr (d : Byte) : Statement (.wireWrsr d) := 
  (header_and_opcode 0x01 d 0 0).trans (show (0x01#8 ++ 0#24 : BitVec 32) = 0x01000000#32 by decide)
theorem wireRead (a : FrameAddr) (n : Nat) : Statement (.wireRead a n) :=
  (header_and_opcode 0x03 (addrHi a) (addrMid a) (addrLo a)).trans
    (show (0x03#8 ++ 0#24 : BitVec 32) = 0x03000000#32 by decide)
theorem wireWrite (a : FrameAddr) (ds : List Byte) : Statement (.wireWrite a ds) :=
  (header_and_opcode 0x02 (addrHi a) (addrMid a) (addrLo a)).trans
    (show (0x02#8 ++ 0#24 : BitVec 32) = 0x02000000#32 by decide)
theorem wireReadId (lo : Byte) (n : Nat) : Statement (.wireReadId lo n) :=
  (header_and_high 0x83 0x00 0x00 lo).trans
    (show (0x83#8 ++ 0x00#8 ++ 0x00#8 ++ 0#8 : BitVec 32) = 0x83000000#32 by decide)
theorem wireWriteId (lo : Byte) (ds : List Byte) : Statement (.wireWriteId lo ds) :=
  (header_and_high 0x82 0x00 0x00 lo).trans
    (show (0x82#8 ++ 0x00#8 ++ 0x00#8 ++ 0#8 : BitVec 32) = 0x82000000#32 by decide)
theorem wireReadLockStatus : Statement .wireReadLockStatus := rfl
theorem wireLockId (d : Byte) : Statement (.wireLockId d) := by
  change (0x82#8 ++ 0x00#8 ++ 0x04#8 ++ 0x00#8 : BitVec 32) &&& BitVec.ofNat 32 0xFFFFFFFF = BitVec.ofNat 32 0x82000400
  decide

end Sys2Proof.Laws.FollowsTheTableRow
end

