-- ==== Sys2Proof/Tests/Slice0.lean ====
section
/-! SUPPORT. Tests, each against a value the spec prints (file 95, or the rule named), and the witnesses: for every
statement with hypotheses, a state and operands that meet them together. -/

namespace Sys2Proof.Tests

open Sys2Proof Sys2Proof.Machine

/-! ### Helpers -/

/-- Whether a step answers a next state of which `f` holds. -/
def after (o : Host.Outcome State Fault Refusal) (f : State → Bool) : Bool :=
  match o with
  | .next t => f t
  | .fault _ => false
  | .refused _ => false

/-- A block in the middle of a command, on a transport that answers the bytes `ins` and then is silent. -/
def during (phase : Phase) (op : OpCode) (faddr : FrameAddr) (len idx : Len) (data : Byte) (ins : List Byte) : State :=
  { State.reset with
    phase := phase, lOp := op, faddr := faddr, lLen := len, idx := idx, lData := data
    link := .scripted (ins.map (fun b => ⟨b, false⟩)) }

/-- The same with a transport whose next answer is a failure. -/
def failing (phase : Phase) (op : OpCode) (faddr : FrameAddr) (len idx : Len) (data : Byte) : State :=
  { during phase op faddr len idx data [] with link := .scripted [⟨0x5A, true⟩] }

/-- An idle block with one command offered. -/
def offering (op : OpCode) (addr : HostAddr) (len : Len) (data : Byte) : State :=
  { State.reset with cmd := [⟨op, ⟨addr, len, data⟩⟩], link := .scripted [] }

/-- CHECK_EN = 0 (R7). -/
def unchecked (s : State) : State := { s with cfg := ⟨false, true⟩ }

/-- An idle machine whose chip has the given status register. -/
def withSr (sr : Byte) : State := { State.reset with chip := { Chip.initial with sr := sr } }

/-! ### Well-formedness: each check refuses an ill-formed term -/

theorem test_wf_read_too_long : (Instr.wireRead 0 (2 ^ 32)).wellFormed = false := by decide

theorem test_wf_read_id_too_long : (Instr.wireReadId 0 (2 ^ 32)).wellFormed = false := by decide

theorem test_wf_write_too_long : (Instr.wireWrite 0 (List.replicate (2 ^ 32) 0)).wellFormed = false := by
  simp only [Instr.wellFormed, Instr.lengthFits, List.length_replicate]
  decide

theorem test_wf_write_id_too_long : (Instr.wireWriteId 0 (List.replicate (2 ^ 32) 0)).wellFormed = false := by
  simp only [Instr.wellFormed, Instr.lengthFits, List.length_replicate]
  decide

/-! ### Decoding: words written out in the spec -/

/-- The command words of file 95, sections 2.1 and 3 (LEN_W = 32). -/
theorem test_decode_command_words :
    decode (.command 0x0000000000000000000) = .ok (.init ⟨0, 0, 0⟩) ∧
    decode (.command 0x0000000000012345AB1) = .ok (.writeByte ⟨0x12345, 0, 0xAB⟩) ∧
    decode (.command 0x00000004000000FC002) = .ok (.writeBuffer ⟨0xFC, 4, 0⟩) ∧
    decode (.command 0x0000000000012345003) = .ok (.readByte ⟨0x12345, 0, 0⟩) ∧
    decode (.command 0x00000006000002FA004) = .ok (.readBuffer ⟨0x2FA, 6, 0⟩) ∧
    decode (.command 0x0000000000000000005) = .ok (.getStatus ⟨0, 0, 0⟩) ∧
    decode (.command 0x0000000000000000006) = .ok (.getWip ⟨0, 0, 0⟩) ∧
    decode (.command 0x0000000000000000007) = .ok (.setWriteEnable ⟨0, 0, 0⟩) ∧
    decode (.command 0x0000000A00000005008) = .ok (.readIdPage ⟨5, 10, 0⟩) ∧
    decode (.command 0x0000000A00000005009) = .ok (.writeIdPage ⟨5, 10, 0⟩) ∧
    decode (.command 0x000000000000000000A) = .ok (.readLockStatus ⟨0, 0, 0⟩) ∧
    decode (.command 0x000000000000000000B) = .ok (.lockId ⟨0, 0, 0⟩) ∧
    decode (.command 0x000000000000000000C) = .ok (.writeDisable ⟨0, 0, 0⟩) ∧
    decode (.command 0x0000000000000000FFD) = .ok (.writeStatus ⟨0, 0, 0xFF⟩) := by
  decide

/-- The reserved codes, V-SQ-7 and V-SQ-8. -/
theorem test_decode_reserved_codes :
    decode (.command 0x000000000000000000E) = .error (.reservedCommand 0xE) ∧
    decode (.command 0x000000090005000009F) = .error (.reservedCommand 0xF) := by
  decide

/-- The wire frames of file 95, section 2, one of each of the ten rows of R105. -/
theorem test_decode_frames :
    decode (.frame [0x06]) = .ok .wireWren ∧
    decode (.frame [0x04]) = .ok .wireWrdi ∧
    decode (.frame [0x05, 0x00]) = .ok .wireRdsr ∧
    decode (.frame [0x01, 0x0C]) = .ok (.wireWrsr 0x0C) ∧
    decode (.frame [0x03, 0x01, 0x23, 0x45, 0x00]) = .ok (.wireRead 0x012345 1) ∧
    decode (.frame [0x02, 0x01, 0xFF, 0xFF, 0x5A]) = .ok (.wireWrite 0x01FFFF [0x5A]) ∧
    decode (.frame [0x83, 0x00, 0x00, 0xFF]) = .ok (.wireReadId 0xFF 0) ∧
    decode (.frame [0x82, 0x00, 0x00, 0xF8, 0xA0, 0xA1]) = .ok (.wireWriteId 0xF8 [0xA0, 0xA1]) ∧
    decode (.frame [0x83, 0x00, 0x04, 0x00, 0x00]) = .ok .wireReadLockStatus ∧
    decode (.frame [0x82, 0x00, 0x04, 0x00, 0x02]) = .ok (.wireLockId 0x02) := by
  decide

/-- Frames that are no row of R105, each refused by name. -/
theorem test_decode_refuses :
    decode (.frame []) = .error .emptyFrame ∧
    decode (.frame [0x07]) = .error (.unknownOpcode 0x07) ∧
    decode (.frame [0x06, 0x00]) = .error .badLength ∧
    decode (.frame [0x02, 0x01, 0x23]) = .error .badLength ∧
    decode (.frame [0x05, 0x01]) = .error .badDummy ∧
    decode (.frame [0x03, 0x00, 0x00, 0x00, 0x01]) = .error .badDummy ∧
    decode (.frame [0x82, 0x00, 0x04, 0x01, 0x02]) = .error (.badAddress 0x000401) := by
  decide

/-- The `match` values of spec/opcode_table.json, every other bit 0. -/
theorem test_table_words :
    decodeTableWord 8 0x1 = some (.writeByte ⟨0, 0, 0⟩) ∧
    decodeTableWord 8 0xD = some (.writeStatus ⟨0, 0, 0⟩) ∧
    decodeTableWord 8 0xE = none ∧
    decodeTableWord 32 0x06000000 = some .wireWren ∧
    decodeTableWord 32 0x04000000 = some .wireWrdi ∧
    decodeTableWord 32 0x05000000 = some .wireRdsr ∧
    decodeTableWord 32 0x01000000 = some (.wireWrsr 0) ∧
    decodeTableWord 32 0x03000000 = some (.wireRead 0 1) ∧
    decodeTableWord 32 0x02000000 = some (.wireWrite 0 [0]) ∧
    decodeTableWord 32 0x83000000 = some (.wireReadId 0 1) ∧
    decodeTableWord 32 0x82000000 = some (.wireWriteId 0 [0]) ∧
    decodeTableWord 32 0x83000400 = some .wireReadLockStatus ∧
    decodeTableWord 32 0x82000400 = some (.wireLockId 0) := by
  decide

/-- The spot values of file 95, section 2.2. -/
theorem test_address_split :
    addrBytes (encodeAddr .main 0x012345) = [0x01, 0x23, 0x45] ∧
    addrBytes (encodeAddr .main 0x01FFFF) = [0x01, 0xFF, 0xFF] ∧
    addrBytes (encodeAddr .main 0x03FFFF) = [0x03, 0xFF, 0xFF] ∧
    addrBytes (encodeAddr .main 0xABCDEF12) = [0xCD, 0xEF, 0x12] ∧
    addrBytes (encodeAddr .id 0x105) = [0x00, 0x00, 0x05] ∧
    addrBytes (encodeAddr .lock 0x12345678) = [0x00, 0x04, 0x00] := by
  decide

/-! ### The commands, one step each -/

/-- V-SQ-1: the step of INIT. -/
theorem test_init_step :
    after (exec (.init ⟨0, 0, 0⟩) (during .tinit 0x0 0 0 0 0 [0x00]))
      (fun t => decide (t.trace = [.tInit] ∧ t.responses = [⟨0, 0, false, .noError⟩])) = true := by decide

/-- V-MA-1: the last step of WRITE_BYTE 0x012345, 0xAB. -/
theorem test_write_byte_last_step :
    after (exec (.writeByte ⟨0x012345, 0, 0xAB⟩) (during .data 0x1 0x012345 1 0 0xAB [0x77]))
      (fun t => decide (t.trace = [.xchg 0xAB 0x77 false, .frameEnd] ∧
        t.responses = [⟨1, 0x00, false, .noError⟩])) = true := by decide

/-- V-MA-13: with CHECK_EN = 0 bits 31:24 of the operand are dropped. -/
theorem test_write_byte_unchecked :
    after (exec (.writeByte ⟨0xFF012345, 0, 0xAB⟩) (unchecked (offering 0x1 0xFF012345 0 0xAB)))
      (fun t => decide (t.faddr = 0x012345 ∧ t.trace = [.frameBegin])) = true := by decide

/-- V-SQ-5, step 7: the third byte of BUF = 01 02 03 04 is sent, STAT reads 0x69. -/
theorem test_write_buffer_step :
    after (exec (.writeBuffer ⟨0xFC, 4, 0⟩)
        { during .data 0x2 0x0000FC 4 2 0 [0x00] with buf := [(0, 0x01), (1, 0x02), (2, 0x03), (3, 0x04)] })
      (fun t => decide (t.trace = [.xchg 0x03 0x00 false] ∧ t.idx = 3 ∧ t.stat = 0x69)) = true := by decide

/-- V-MA-12: the sum of the page check does not wrap. -/
theorem test_write_buffer_page_check :
    after (exec (.writeBuffer ⟨0x1, 0xFFFFFFFF, 0⟩) (offering 0x2 0x1 0xFFFFFFFF 0))
      (fun t => decide (t.trace = [] ∧ t.responses = [⟨0, 0, false, .pageBoundaryCrossed⟩])) = true := by decide

/-- V-MA-17: the last step of READ_BYTE 0x012345 with the answer 0xAB. -/
theorem test_read_byte_last_step :
    after (exec (.readByte ⟨0x012345, 0, 0⟩) (during .data 0x3 0x012345 1 0 0 [0xAB]))
      (fun t => decide (t.trace = [.xchg 0x00 0xAB false, .frameEnd] ∧
        t.responses = [⟨1, 0xAB, false, .noError⟩] ∧ t.buf = [])) = true := by decide

/-- V-MA-18: reads are range-checked too. -/
theorem test_read_byte_out_of_range :
    after (exec (.readByte ⟨0x040000, 0, 0⟩) (offering 0x3 0x040000 0 0))
      (fun t => decide (t.trace = [] ∧ t.responses = [⟨0, 0, false, .addressOutOfRange⟩])) = true := by decide

/-- V-MA-19: the last step of READ_BUFFER 0x0000FC, 4. -/
theorem test_read_buffer_last_step :
    after (exec (.readBuffer ⟨0xFC, 4, 0⟩)
        { during .data 0x4 0x0000FC 4 3 0 [0x04] with buf := [(0, 0x01), (1, 0x02), (2, 0x03)] })
      (fun t => decide (t.buf = [(0, 0x01), (1, 0x02), (2, 0x03), (3, 0x04)] ∧
        t.responses = [⟨4, 0x00, false, .noError⟩])) = true := by decide

/-- V-SQ-6: a read of length 0 ends with its address. -/
theorem test_read_buffer_zero_length :
    after (exec (.readBuffer ⟨0x10, 0, 0⟩) (during .alo 0x4 0x000010 0 0 0 [0x00]))
      (fun t => decide (t.trace = [.xchg 0x10 0x00 false, .frameEnd] ∧
        t.responses = [⟨0, 0x00, false, .noError⟩])) = true := by decide

/-- V-ST-3: the status byte verbatim. -/
theorem test_get_status_last_step :
    after (exec (.getStatus ⟨0, 0, 0⟩) (during .data 0x5 0 1 0 0 [0xFF]))
      (fun t => decide (t.responses = [⟨1, 0xFF, false, .noError⟩])) = true := by decide

/-- V-ST-13: unused operands are ignored, cmd_data is latched all the same. -/
theorem test_get_status_ignores_operands :
    after (exec (.getStatus ⟨0xFFFFFFFF, 77, 0x55⟩) (offering 0x5 0xFFFFFFFF 77 0x55))
      (fun t => decide (t.rErr = .noError ∧ t.lLen = 1 ∧ t.faddr = 0 ∧ t.reg 7 = 0x55)) = true := by decide

/-- V-ST-6: status 0x03 gives flag 1. -/
theorem test_get_wip_busy :
    after (exec (.getWip ⟨0, 0, 0⟩) (during .data 0x6 0 1 0 0 [0x03]))
      (fun t => decide (t.responses = [⟨1, 0x03, true, .noError⟩] ∧ t.stat = 0x04)) = true := by decide

/-- V-ST-8: status 0xFE gives flag 0. -/
theorem test_get_wip_only_bit_0 :
    after (exec (.getWip ⟨0, 0, 0⟩) (during .data 0x6 0 1 0 0 [0xFE]))
      (fun t => decide (t.responses = [⟨1, 0xFE, false, .noError⟩])) = true := by decide

/-- V-ST-9. -/
theorem test_set_write_enable :
    after (exec (.setWriteEnable ⟨0, 0, 0⟩) (during .opc 0x7 0 0 0 0 [0x00]))
      (fun t => decide (t.trace = [.xchg 0x06 0x00 false, .frameEnd] ∧
        t.responses = [⟨0, 0x00, false, .noError⟩])) = true := by decide

/-- V-ST-10. -/
theorem test_write_disable :
    after (exec (.writeDisable ⟨0, 0, 0⟩) (during .opc 0xC 0 0 0 0 [0x00]))
      (fun t => decide (t.trace = [.xchg 0x04 0x00 false, .frameEnd] ∧
        t.responses = [⟨0, 0x00, false, .noError⟩])) = true := by decide

/-- V-ST-11: the last step of WRITE_STATUS 0x0C. -/
theorem test_write_status_last_step :
    after (exec (.writeStatus ⟨0, 0, 0x0C⟩) (during .data 0xD 0 1 0 0x0C [0x00]))
      (fun t => decide (t.trace = [.xchg 0x0C 0x00 false, .frameEnd] ∧
        t.responses = [⟨1, 0x00, false, .noError⟩])) = true := by decide

/-- V-ID-1: the last step of READ_ID_PAGE 0x05, 3. -/
theorem test_read_id_page_last_step :
    after (exec (.readIdPage ⟨5, 3, 0⟩)
        { during .data 0x8 0x000005 3 2 0 [0x33] with buf := [(0, 0x11), (1, 0x22)] })
      (fun t => decide (t.buf = [(0, 0x11), (1, 0x22), (2, 0x33)] ∧
        t.responses = [⟨3, 0x00, false, .noError⟩])) = true := by decide

/-- V-ID-8: with CHECK_EN = 0 bits 31:8 of the ID address are dropped. -/
theorem test_read_id_page_unchecked :
    after (exec (.readIdPage ⟨0x105, 1, 0⟩) (unchecked (offering 0x8 0x105 1 0)))
      (fun t => decide (t.faddr = 0x000005 ∧ t.trace = [.frameBegin])) = true := by decide

/-- V-ID-6: 0xF8 + 8 = 256 passes. -/
theorem test_write_id_page_passes :
    after (exec (.writeIdPage ⟨0xF8, 8, 0⟩) (offering 0x9 0xF8 8 0))
      (fun t => decide (t.faddr = 0x0000F8 ∧ t.lLen = 8 ∧ t.phase = .opc)) = true := by decide

/-- V-ID-7: 0xF8 + 9 = 257 does not. -/
theorem test_write_id_page_crosses :
    after (exec (.writeIdPage ⟨0xF8, 9, 0⟩) (offering 0x9 0xF8 9 0))
      (fun t => decide (t.trace = [] ∧ t.responses = [⟨0, 0, false, .pageBoundaryCrossed⟩])) = true := by decide

/-- V-ID-10: the lock status byte goes to BUF[0] and to R_DATA. -/
theorem test_read_lock_status_last_step :
    after (exec (.readLockStatus ⟨0, 0, 0⟩) (during .data 0xA 0x000400 1 0 0 [0x01]))
      (fun t => decide (t.buf = [(0, 0x01)] ∧ t.responses = [⟨1, 0x01, false, .noError⟩])) = true := by decide

/-- V-ID-12: LOCK_ID sends the constant, not cmd_data. -/
theorem test_lock_id_last_step :
    after (exec (.lockId ⟨0x12345678, 0, 0xFF⟩) (during .data 0xB 0x000400 1 0 0xFF [0x00]))
      (fun t => decide (t.trace = [.xchg 0x02 0x00 false, .frameEnd] ∧
        t.responses = [⟨1, 0x00, false, .noError⟩])) = true := by decide

/-- V-TF-4: the seventh exchange fails; two data bytes counted. -/
theorem test_failure_in_data :
    after (step { failing .data 0x2 0x000100 4 2 0 with buf := [(0, 0x00), (1, 0x01), (2, 0x02), (3, 0x03)] })
      (fun t => decide (t.trace = [.xchg 0x02 0x5A true, .frameEnd] ∧
        t.responses = [⟨2, 0x00, false, .transportFailure⟩])) = true := by decide

/-- V-TF-8: the byte that comes with a failure reaches nothing. -/
theorem test_failure_drops_byte :
    after (step (failing .data 0x3 0x000000 1 0 0))
      (fun t => decide (t.rData = 0 ∧ t.responses = [⟨0, 0x00, false, .transportFailure⟩])) = true := by decide

/-- V-SQ-8: a reserved code, its operands not looked at. -/
theorem test_illegal_command :
    after (step (offering 0xF 0x50000 9 9))
      (fun t => decide (t.trace = [] ∧ t.lOp = 0xF ∧ t.responses = [⟨0, 0, false, .illegalCommand⟩])) = true := by decide

/-- V-MA-11: AddressOutOfRange has priority. -/
theorem test_error_priority :
    after (step (offering 0x2 0x0400FF 2 0))
      (fun t => decide (t.responses = [⟨0, 0, false, .addressOutOfRange⟩])) = true := by decide

/-- V-RS-2: reset in the third data byte of V-SQ-5. -/
theorem test_reset_cuts_frame :
    after (step { during .data 0x2 0x0000FC 4 2 0 [] with agenda := [.reset] })
      (fun t => decide (t.trace = [.frameEnd] ∧ t.responses = [] ∧ t.reg 0 = 0 ∧ t.reg 2 = 0 ∧ t.reg 5 = 0)) = true := by
  decide

/-! ### The wire frames, one step each -/

/-- P1, step 3: SR 0x00 becomes 0x02. -/
theorem test_wire_wren :
    after (exec .wireWren (withSr 0x00)) (fun t => decide (t.chip.sr = 0x02)) = true := by decide

/-- P5, step 3: ignored during a write cycle. -/
theorem test_wire_wren_ignored :
    after (exec .wireWren (withSr 0x01)) (fun t => decide (t.chip.sr = 0x01)) = true := by decide

/-- File 95, section 2.3: WRITE_DISABLE takes SR from 0x02 to 0x00. -/
theorem test_wire_wrdi :
    after (exec .wireWrdi (withSr 0x02)) (fun t => decide (t.chip.sr = 0x00)) = true := by decide

/-- P1, step 5: the status register is read during a write cycle. -/
theorem test_wire_rdsr :
    after (exec .wireRdsr (withSr 0x03))
      (fun t => decide (t.busTrace[2]? = some (.xchg 0x00 0x03 false))) = true := by decide

/-- P6, step 2: WRITE_STATUS 0xFF takes SR from 0x02 to 0x8F. -/
theorem test_wire_wrsr :
    after (exec (.wireWrsr 0xFF) (withSr 0x02)) (fun t => decide (t.chip.sr = 0x8F)) = true := by decide

/-- P2b: the bytes past the page end overwrite the start of the same page. -/
theorem test_wire_write_wraps :
    after (exec (.wireWrite 0x0002FE [0x11, 0x22, 0x33, 0x44]) (withSr 0x02))
      (fun t => decide (t.chip.mem = [(0x200, 0x33), (0x201, 0x44), (0x2FE, 0x11), (0x2FF, 0x22)] ∧
        t.chip.sr = 0x03)) = true := by decide

/-- P4, step 1: without WREN nothing happens. -/
theorem test_wire_write_without_wren :
    after (exec (.wireWrite 0x000010 [0x77]) (withSr 0x00))
      (fun t => decide (t.chip.mem = [] ∧ t.chip.sr = 0x00)) = true := by decide

/-- R83 (c): a READ rolls over from 0x3FFFF to 0, bits 23:18 ignored. -/
theorem test_wire_read_rolls_over :
    after (exec (.wireRead 0xFFFFFF 2)
        { withSr 0x00 with chip := { Chip.initial with mem := [(0, 0xBB), (0x3FFFF, 0xAA)] } })
      (fun t => decide (t.busTrace[5]? = some (.xchg 0x00 0xAA false) ∧
        t.busTrace[6]? = some (.xchg 0x00 0xBB false))) = true := by decide

/-- P3, step 4: the ID page is read from address 5. -/
theorem test_wire_read_id :
    after (exec (.wireReadId 0x05 1) { withSr 0x00 with chip := { Chip.initial with idp := [(5, 0xA0)] } })
      (fun t => decide (t.busTrace[5]? = some (.xchg 0x00 0xA0 false))) = true := by decide

/-- P3, step 3: the bytes land in the ID page, the main array is not touched. -/
theorem test_wire_write_id :
    after (exec (.wireWriteId 0x05 [0xA0, 0xA1]) (withSr 0x02))
      (fun t => decide (t.chip.idp = [(5, 0xA0), (6, 0xA1)] ∧ t.chip.mem = [] ∧ t.chip.sr = 0x03)) = true := by decide

/-- P3, step 12: a locked page makes it a no-op, WEL still set. -/
theorem test_wire_write_id_locked :
    after (exec (.wireWriteId 0x05 [0x00, 0x00])
        { withSr 0x02 with chip := { Chip.initial with sr := 0x02, locked := true, idp := [(5, 0xA0)] } })
      (fun t => decide (t.chip.idp = [(5, 0xA0)] ∧ t.chip.sr = 0x02)) = true := by decide

/-- P3, step 10: bit 0 of the answer is LOCKED, whatever the free bits are. -/
theorem test_wire_read_lock_status (free : Byte) :
    (lockStatusByte true free).getLsbD 0 = true ∧ (lockStatusByte false free).getLsbD 0 = false := by
  simp [lockStatusByte]

/-- P3, step 8: LOCK_ID with WEL set locks and starts a write cycle. -/
theorem test_wire_lock_id :
    after (exec (.wireLockId 0x02) (withSr 0x02))
      (fun t => decide (t.chip.locked = true ∧ t.chip.sr = 0x03)) = true := by decide

/-- R89: a data byte outside the pattern `xxxxxx1x` does not lock. -/
theorem test_wire_lock_id_pattern :
    after (exec (.wireLockId 0xFD) (withSr 0x02))
      (fun t => decide (t.chip.locked = false ∧ t.chip.sr = 0x02)) = true := by decide

/-- P6, after step 3: the end of the write cycle takes SR from 0x8F to 0x8C. -/
theorem test_write_cycle_done :
    after (step { withSr 0x8F with agenda := [.writeCycleDone] }) (fun t => decide (t.chip.sr = 0x8C)) = true := by
  decide

/-! ### Witnesses: the hypotheses of every statement that has some can be met, at the ends of their ranges -/

/-- The longest stream is well formed. -/
theorem witness_DecodeInvertsEncode : (Instr.wireRead 0x3FFFF 4294967295).wellFormed = true := by decide

theorem witness_EncodeInvertsDecode :
    decode (.command 0xFFFFFFFFFFFFFFFFFFD) = .ok (.writeStatus ⟨0xFFFFFFFF, 0xFFFFFFFF, 0xFF⟩) ∧
    decode (.frame [0x03, 0xFF, 0xFF, 0xFF]) = .ok (.wireRead 0xFFFFFF 0) := by
  decide

/-- The clauses of StepRunsTheDecodedInstruction in order: an offered command, a waiting frame, a command in progress,
nothing to do, the block's turn in the agenda, a table word. -/
theorem witness_StepRunsTheDecodedInstruction :
    (let s := offering 0xD 0 0 0xFF
     s.agenda = [] ∧ s.phase = .idle ∧ s.bus = [] ∧ s.cmd = [⟨0xD, ⟨0, 0, 0xFF⟩⟩] ∧
       decodeCommand ⟨0xD, ⟨0, 0, 0xFF⟩⟩ = .ok (.writeStatus ⟨0, 0, 0xFF⟩)) ∧
    (let s := { State.reset with bus := [[0x06]] }
     s.agenda = [] ∧ s.phase = .idle ∧ s.bus = [[0x06]] ∧ decodeFrame [0x06] = .ok .wireWren) ∧
    (let s := during .alo 0x8 0x0000FF 0 0 0 [0x00]
     s.agenda = [] ∧ s.phase ≠ .idle ∧ decodeCommand s.latched = .ok (.readIdPage ⟨0xFF, 0, 0⟩)) ∧
    (State.reset.agenda = [] ∧ State.reset.phase = .idle ∧ State.reset.bus = [] ∧ State.reset.cmd = []) ∧
    ({ State.reset with agenda := [.turn, .reset] } : State).agenda = [.turn, .reset] ∧
    decodeTableWord 32 0x82000400 = some (.wireLockId 0) := by
  decide

theorem witness_InitCallsTheTransportOnce :
    (offering 0x0 0 0 0).phase = .idle ∧
    (let s := during .tinit 0x0 0 0 0 0 [0x00]
     s.phase = .tinit ∧ s.lOp = 0x0 ∧ s.link = .scripted [⟨0x00, false⟩]) := by
  decide

/-- The last legal address and the longest write that ends at a page's end; with CHECK_EN = 0 any operand. -/
theorem witness_MainArrayCommandsAreIssued :
    (let s := offering 0x2 0x3FF00 256 0
     s.phase = .idle ∧ s.cfg.checkEn = true ∧ (0x3FFFF : HostAddr).toNat < 0x40000 ∧
       (0x3FF00 : HostAddr).toNat < 0x40000 ∧
       ((0x3FF00 : HostAddr).extractLsb' 0 8).toNat + (256 : Len).toNat ≤ 256) ∧
    (let s := unchecked (offering 0x2 0xFFFFFFFF 0xFFFFFFFF 0)
     s.phase = .idle ∧ s.cfg.checkEn = false) := by
  decide

theorem witness_StatusCommandsAreIssued : (offering 0x5 0xFFFFFFFF 77 0x55).phase = .idle := by decide

theorem witness_IdAndLockCommandsAreIssued :
    (let s := offering 0x9 0xFF 1 0
     s.phase = .idle ∧ s.cfg.checkEn = true ∧ (0xFF : HostAddr).toNat < 0x100 ∧
       ((0xFF : HostAddr).extractLsb' 0 8).toNat + (1 : Len).toNat ≤ 256) ∧
    (let s := unchecked (offering 0x8 0x105 1 0)
     s.phase = .idle ∧ s.cfg.checkEn = false) := by
  decide

/-- The first illegal address of each kind raises the error, the last legal one does not. -/
theorem witness_AddressOutOfRangeExactlyWhen :
    (∃ t, exec (.readByte ⟨0x40000, 0, 0⟩) (offering 0x3 0x40000 0 0) = .next t ∧ t.rErr = .addressOutOfRange) ∧
    (∃ t, exec (.readByte ⟨0x3FFFF, 0, 0⟩) (offering 0x3 0x3FFFF 0 0) = .next t ∧ t.rErr = .noError) ∧
    (∃ t, exec (.readIdPage ⟨0x100, 3, 0⟩) (offering 0x8 0x100 3 0) = .next t ∧ t.rErr = .addressOutOfRange) ∧
    decodeCommand ⟨0x3, ⟨0x40000, 0, 0⟩⟩ = .ok (.readByte ⟨0x40000, 0, 0⟩) :=
  ⟨⟨_, rfl, rfl⟩, ⟨_, rfl, rfl⟩, ⟨_, rfl, rfl⟩, rfl⟩

/-- One byte past the page raises the error, the last byte of it does not. -/
theorem witness_PageBoundaryCrossedExactlyWhen :
    (∃ t, exec (.writeBuffer ⟨0xFE, 3, 0⟩) (offering 0x2 0xFE 3 0) = .next t ∧ t.rErr = .pageBoundaryCrossed) ∧
    (∃ t, exec (.writeBuffer ⟨0xFE, 2, 0⟩) (offering 0x2 0xFE 2 0) = .next t ∧ t.rErr = .noError) ∧
    (∃ t, exec (.writeIdPage ⟨0xF8, 9, 0⟩) (offering 0x9 0xF8 9 0) = .next t ∧ t.rErr = .pageBoundaryCrossed) ∧
    decodeCommand ⟨0x2, ⟨0xFE, 3, 0⟩⟩ = .ok (.writeBuffer ⟨0xFE, 3, 0⟩) :=
  ⟨⟨_, rfl, rfl⟩, ⟨_, rfl, rfl⟩, ⟨_, rfl, rfl⟩, rfl⟩

theorem witness_ReservedCodesRaiseIllegalCommand :
    let s := offering 0xF 0x50000 9 9
    s.agenda = [] ∧ s.phase = .idle ∧ s.bus = [] ∧ s.cmd = [⟨0xF, ⟨0x50000, 9, 9⟩⟩] := by
  decide

theorem witness_IssueErrorIsPrecise :
    let s := offering 0x1 0x40000 0 1
    s.agenda = [] ∧ s.phase = .idle ∧ s.bus = [] ∧ ∃ t, step s = .next t ∧ t.rErr ≠ .noError :=
  ⟨rfl, rfl, rfl, _, rfl, by decide⟩

theorem witness_IssueForgetsEarlierCommands :
    let s := offering 0x4 0x3FFFF 0xFFFFFFFF 1
    s.phase = .idle ∧ decodeCommand ⟨0x4, ⟨0x3FFFF, 0xFFFFFFFF, 1⟩⟩ = .ok (.readBuffer ⟨0x3FFFF, 0xFFFFFFFF, 1⟩) ∧
      ∃ t, exec (.readBuffer ⟨0x3FFFF, 0xFFFFFFFF, 1⟩) s = .next t ∧ t.phase ≠ .idle :=
  ⟨rfl, rfl, _, rfl, by decide⟩

theorem witness_BusyBlockAcceptsNothing :
    let s := { during .opc 0x7 0 0 0 0 [0x00] with cmd := [⟨0x4, ⟨0, 1, 0⟩⟩] }
    s.agenda = [] ∧ s.phase ≠ .idle ∧ (∃ t, step s = .next t) ∧
      decodeCommand ⟨0x4, ⟨0, 1, 0⟩⟩ = .ok (.readBuffer ⟨0, 1, 0⟩) ∧ (0x4 : OpCode) ≠ s.lOp :=
  ⟨rfl, by decide, ⟨_, rfl⟩, rfl, by decide⟩

/-- One state for each of the four phases, with and without a data phase. -/
theorem witness_HeaderStepsFollowTheFrame :
    descriptor 0x2 = some rowWriteBuffer ∧ rowWriteBuffer.wop = some 0x02 ∧
    descriptor 0x7 = some rowSetWriteEnable ∧ rowSetWriteEnable.wop = some 0x06 ∧
    (∀ p ∈ [Phase.opc, .ahi, .amid, .alo],
      let s := during p 0x2 0x3FF00 256 0 0 [0xEE]
      s.agenda = [] ∧ s.lOp = 0x2 ∧ s.phase = p ∧ s.link = .scripted [⟨0xEE, false⟩]) ∧
    (let s := during .opc 0x7 0 0 0 0 [0xEE]
     s.agenda = [] ∧ s.lOp = 0x7 ∧ s.phase = .opc ∧ s.lLen = 0 ∧ s.link = .scripted [⟨0xEE, false⟩]) := by
  decide

theorem witness_DatalessCommandsComplete :
    ∀ op ∈ [(0x7 : OpCode), 0xC],
      let s := during .opc op 0 0 0 0 [0xEE]
      s.phase = .opc ∧ s.lLen = 0 ∧ s.lOp = op ∧ s.link = .scripted [⟨0xEE, false⟩] := by
  decide

theorem witness_OneByteReadsComplete :
    ∀ op ∈ [(0x3 : OpCode), 0x5, 0x6, 0xA],
      let s := during .data op 0 1 0 0 [0xFF]
      s.phase = .data ∧ s.idx = 0 ∧ s.lLen = 1 ∧ s.lOp = op ∧ s.link = .scripted [⟨0xFF, false⟩] := by
  decide

theorem witness_OneByteWritesComplete :
    ∀ op ∈ [(0x1 : OpCode), 0xD, 0xB],
      let s := during .data op 0 1 0 0xAB [0xFF]
      s.phase = .data ∧ s.idx = 0 ∧ s.lLen = 1 ∧ s.lOp = op ∧ s.link = .scripted [⟨0xFF, false⟩] := by
  decide

/-- The first and the last byte of a stream. -/
theorem witness_BufferReadsStoreEachByte :
    ∀ op ∈ [(0x4 : OpCode), 0x8], ∀ i ∈ [(0 : Len), 255],
      let s := during .data op 0 256 i 0 [0x11]
      s.phase = .data ∧ s.lOp = op ∧ s.idx = i ∧ s.link = .scripted [⟨0x11, false⟩] :=
  fun _ _ _ _ => ⟨rfl, rfl, rfl, rfl⟩

/-- The first and the last byte of a stream. -/
theorem witness_BufferWritesSendEachByte :
    ∀ op ∈ [(0x2 : OpCode), 0x9], ∀ i ∈ [(0 : Len), 255],
      let s := during .data op 0 256 i 0 [0x11]
      s.phase = .data ∧ s.lOp = op ∧ s.idx = i ∧ s.link = .scripted [⟨0x11, false⟩] :=
  fun _ _ _ _ => ⟨rfl, rfl, rfl, rfl⟩

/-- A failure in the first and in the last phase; the same with T_CAN_FAIL = 0. -/
theorem witness_FailedExchangeEndsTheFrame :
    (let s := failing .opc 0x2 0x000100 4 0 0
     s.agenda = [] ∧ s.tOut = some 0x02 ∧ s.link = .scripted [⟨0x5A, true⟩] ∧ s.cfg.tCanFail = true) ∧
    (let s := failing .data 0x2 0x000100 4 3 0
     s.agenda = [] ∧ s.tOut = some 0xFF ∧ s.link = .scripted [⟨0x5A, true⟩] ∧ s.cfg.tCanFail = true) ∧
    (let s := { failing .data 0x2 0x000100 4 3 0 with cfg := ⟨true, false⟩ }
     s.agenda = [] ∧ s.tOut = some 0xFF ∧ s.link = .scripted [⟨0x5A, true⟩] ∧ s.cfg.tCanFail = false) := by
  decide

theorem witness_SilentTransportHangsTheBlock :
    let s := during .data 0x4 0x3FFFF 4 3 0 []
    s.positioned = true ∧ s.phase ≠ .idle ∧ s.agenda = [] ∧ s.link = .scripted [] := by
  decide

theorem witness_SentBytesIgnoreReceivedBytes :
    let s := during .data 0xB 0x000400 1 0 0 [0xEE]
    s.agenda = [] ∧ s.phase ≠ .idle ∧ s.tOut = some 0x02 ∧ descriptor s.lOp = some rowLockId ∧
      rowLockId.dir ≠ .read ∧ s.link = .scripted [⟨0xEE, false⟩] ∧ ∃ t, step s = .next t :=
  ⟨rfl, by decide, rfl, rfl, by decide, rfl, _, rfl⟩

theorem witness_ResponderIsOneTransport :
    let s := { during .ahi 0x4 0x3FFFF 1 0 0 [] with link := .responder [true] }
    s.agenda = [] ∧ s.phase ≠ .idle ∧ s.link = .responder [true] ∧ ∃ t, step s = .next t :=
  ⟨rfl, by decide, rfl, _, rfl⟩

/-- A read of length 0 at the last address, and a write of one byte. -/
theorem witness_WholeCommandSendsItsFrame :
    (let s := { offering 0x4 0x3FFFF 0 0 with link := .scripted (List.replicate 4 (⟨0xEE, false⟩ : Answer)) }
     s.agenda = [] ∧ s.bus = [] ∧ s.phase = .idle ∧ s.cmd = [⟨0x4, ⟨0x3FFFF, 0, 0⟩⟩] ∧ s.buf.wf = true ∧
       descriptor 0x4 = some rowReadBuffer ∧ rowReadBuffer.wop = some 0x03 ∧
       rowReadBuffer.issueError s.cfg.checkEn ⟨0x3FFFF, 0, 0⟩ = none ∧
       (rowReadBuffer.header 0x03 (encodeAddr rowReadBuffer.akind 0x3FFFF)).length = 4 ∧
       (rowReadBuffer.length 0).toNat = 0) ∧
    (let s := { offering 0xD 0 0 0x0C with link := .scripted [⟨0xEE, false⟩, ⟨0xEE, false⟩] }
     s.agenda = [] ∧ s.bus = [] ∧ s.phase = .idle ∧ s.cmd = [⟨0xD, ⟨0, 0, 0x0C⟩⟩] ∧ s.buf.wf = true ∧
       descriptor 0xD = some rowWriteStatus ∧ rowWriteStatus.wop = some 0x01 ∧
       rowWriteStatus.issueError s.cfg.checkEn ⟨0, 0, 0x0C⟩ = none ∧
       (rowWriteStatus.header 0x01 (encodeAddr rowWriteStatus.akind 0)).length = 1 ∧
       (rowWriteStatus.length 0).toNat = 1) := by
  decide

/-- INIT, and the longest stream. -/
theorem witness_AcceptedCommandsTerminate :
    (let s := { offering 0x0 0 0 0 with link := .responder [] }
     s.agenda = [] ∧ s.bus = [] ∧ s.phase = .idle ∧ s.cmd = [⟨0x0, ⟨0, 0, 0⟩⟩] ∧ descriptor 0x0 = some rowInit ∧
       rowInit.issueError s.cfg.checkEn ⟨0, 0, 0⟩ = none ∧ s.link = .responder []) ∧
    (let s := { offering 0x4 0 0xFFFFFFFF 0 with link := .responder [] }
     s.agenda = [] ∧ s.bus = [] ∧ s.phase = .idle ∧ s.cmd = [⟨0x4, ⟨0, 0xFFFFFFFF, 0⟩⟩] ∧
       descriptor 0x4 = some rowReadBuffer ∧ rowReadBuffer.issueError s.cfg.checkEn ⟨0, 0xFFFFFFFF, 0⟩ = none ∧
       s.link = .responder []) := by
  decide

/-- A block in its last data byte is positioned, and steps. -/
theorem witness_StepKeepsPositioned :
    let s := during .data 0x2 0x3FF00 256 255 0 [0x00]
    s.positioned = true ∧ ∃ t, step s = .next t :=
  ⟨by decide, _, rfl⟩

theorem witness_PositionedMachineGoesOn : (during .tinit 0x0 0 0 0 0 []).positioned = true := by decide

theorem witness_ReachableStatesMeetR45 :
    let s := offering 0x2 0x3FF00 256 0
    s.phase = .idle ∧ s.idx = 0 ∧ ∃ t, core.run 2 s = .next t :=
  ⟨rfl, rfl, _, rfl⟩

theorem witness_PhaseMovesAlongTheRelation :
    let s := during .alo 0x4 0x3FFFF 0 0 0 [0x00]
    s.positioned = true ∧ ∃ t, step s = .next t ∧ t.phase = .idle :=
  ⟨by decide, _, rfl, rfl⟩

/-- The last address of each space. -/
theorem witness_StepKeepsMemoriesFit :
    let s := { during .data 0x4 0 1 0 0 [0xFF] with
                buf := [(0, 0x11), (0xFFFFFFFF, 0x22)]
                chip := { Chip.initial with mem := [(0x3FFFF, 0x33)], idp := [(255, 0x44)] } }
    s.memoriesFit = true ∧ ∃ t, step s = .next t ∧ t.buf = [(0xFFFFFFFF, 0x22)] :=
  ⟨by decide, _, rfl, by decide⟩

theorem witness_TraceIsWholeFrames :
    let s := { during .opc 0x7 0 0 0 0 [0x00] with trace := [.tInit, .frameBegin] }
    framing s.trace = some s.frameActive ∧ ∃ t, step s = .next t ∧ framing t.trace = some false :=
  ⟨by decide, _, rfl, by decide⟩

/-- A block after its first data byte: the header and one byte have been sent. -/
theorem witness_HeaderIsSentFirst :
    let s := { during .data 0x2 0x0000FC 4 1 0 [0x00] with
                trace := [.frameBegin, .xchg 0x02 0 false, .xchg 0x00 0 false, .xchg 0x00 0 false,
                          .xchg 0xFC 0 false, .xchg 0x01 0 false] }
    s.positioned = true ∧ s.headerSent ∧ ∃ t, step s = .next t := by
  refine ⟨by decide, ?_, _, rfl⟩
  intro d w hd hw
  cases hd
  cases hw
  exact ⟨by decide, by decide⟩

theorem witness_ChipReceivesTheFrame :
    let s := { during .data 0x9 0x000005 2 1 0 [] with
                link := .responder [], chip := { Chip.initial with rx := some [0x82, 0x00, 0x00, 0x05, 0xA0] }
                trace := [.frameBegin, .xchg 0x82 0 false, .xchg 0x00 0 false, .xchg 0x00 0 false,
                          .xchg 0x05 0 false, .xchg 0xA0 0 false] }
    s.link.attached = true ∧ s.frameActive = true ∧ s.chipFollows ∧ ∃ t, step s = .next t :=
  ⟨rfl, rfl, fun _ _ => by decide, _, rfl⟩

/-- READ_BYTE, GET_STATUS, READ_LOCK_STATUS, LOCK_ID and WRITE_STATUS (MAIN unchanged) and WRITE_BYTE (the ID page
unchanged) before their opcode, in their own step and in a reset that cuts the frame. -/
theorem witness_CommandsKeepToTheirArray :
    ∀ op ∈ [(0x3 : OpCode), 0x5, 0xA, 0xB, 0xD, 0x1], ∀ es ∈ [[], [Event.reset]],
      let s := { during .opc op (if op = 0xA ∨ op = 0xB then 0x000400 else 0) 1 0 0 [] with
                  link := .responder [], chip := { Chip.initial with rx := some [] }, trace := [.frameBegin]
                  agenda := es }
      s.positioned = true ∧ s.headerSent ∧ s.chipFollows ∧ s.phase ≠ .idle ∧ ∃ t, step s = .next t := by
  intro op hop es hes
  simp only [List.mem_cons, List.not_mem_nil, or_false] at hop hes
  rcases hop with rfl | rfl | rfl | rfl | rfl | rfl <;> rcases hes with rfl | rfl <;>
    exact ⟨by decide, fun _ _ _ _ => rfl, fun _ _ => rfl, by decide, _, rfl⟩

/-- A completion, a step that is none, a refused issue, waiting with nothing offered, a frame of another master, and an
event of another agent. -/
theorem witness_OneResponsePerCompletion :
    (let s := { during .opc 0x7 0 0 0 0 [0x00] with agenda := [.turn] }
     s.blockMoves = true ∧ ∃ t, step s = .next t ∧ s.phase ≠ .idle ∧ t.phase = .idle) ∧
    (let s := during .opc 0x4 0 0 0 0 [0x00]
     s.blockMoves = true ∧ ∃ t, step s = .next t ∧ t.phase ≠ .idle) ∧
    (let s := offering 0x3 0x40000 0 0
     s.blockMoves = true ∧ s.bus = [] ∧ s.cmd ≠ [] ∧ ∃ t, step s = .next t ∧ s.phase = .idle ∧ t.phase = .idle) ∧
    (State.reset.blockMoves = true ∧ State.reset.phase = .idle ∧ State.reset.cmd = [] ∧
      ∃ t, step State.reset = .next t) ∧
    (let s := { offering 0x7 0 0 0 with bus := [[0x06]] }
     s.blockMoves = true ∧ s.phase = .idle ∧ s.bus ≠ [] ∧ ∃ t, step s = .next t) ∧
    (let s := { during .data 0x2 0x0000FC 4 2 0 [] with agenda := [.reset] }
     s.blockMoves = false ∧ ∃ t, step s = .next t ∧ t.phase = .idle) :=
  ⟨⟨rfl, _, rfl, by decide, rfl⟩, ⟨rfl, _, rfl, by decide⟩, ⟨rfl, rfl, by decide, _, rfl, rfl, rfl⟩,
    ⟨rfl, rfl, rfl, _, rfl⟩, ⟨rfl, rfl, by decide, _, rfl⟩, ⟨rfl, _, rfl, rfl⟩⟩

theorem witness_ReferenceModeNeverFails :
    let s := { failing .data 0x2 0xFFFFFF 4 3 0 with cfg := ⟨false, false⟩, cmd := [⟨0xD, ⟨0, 0, 0⟩⟩] }
    s.cfg = ⟨false, false⟩ ∧ s.rErr = .noError ∧ (∀ c ∈ s.cmd, c.op ≠ 0xE ∧ c.op ≠ 0xF) ∧ ∃ t, step s = .next t :=
  ⟨rfl, rfl, by decide, _, rfl⟩

theorem witness_LockIsIrreversible :
    let s := { State.reset with chip := { Chip.initial with locked := true, sr := 0x02 }, bus := [[0x82, 0, 4, 0, 2]] }
    s.chip.locked = true ∧ ∃ t, step s = .next t :=
  ⟨rfl, _, rfl⟩

theorem witness_LockedIdPageNeverChanges :
    let s := { State.reset with chip := { Chip.initial with locked := true, sr := 0x02 }, bus := [[0x82, 0, 0, 5, 2]] }
    s.chip.locked = true ∧ ∃ t, step s = .next t :=
  ⟨rfl, _, rfl⟩

theorem witness_WriteCycleShieldsTheChip :
    let s := { withSr 0x03 with bus := [[0x02, 0, 0, 5, 2]] }
    s.chip.wip = true ∧ (∀ es, s.agenda ≠ .writeCycleDone :: es) ∧ ∃ t, step s = .next t :=
  ⟨by decide, fun _ => by simp [withSr, State.reset], _, rfl⟩

/-- A data step that stores, and an issue; with a transport that is not the responder, and a frame that stays open. -/
theorem witness_CommandFrame :
    (let s := during .data 0x4 0 2 0 0 [0x11]
     rowOf (.readBuffer ⟨0, 2, 0⟩) = some rowReadBuffer ∧ s.phase = .data ∧ s.lOp = rowReadBuffer.op ∧
       rowReadBuffer.storeIndex s = some 0 ∧ s.link.attached = false ∧
       ∃ t, exec (.readBuffer ⟨0, 2, 0⟩) s = .next t ∧ t.frameActive = true) ∧
    (let s := offering 0x7 0 0 0
     rowOf (.setWriteEnable ⟨0, 0, 0⟩) = some rowSetWriteEnable ∧ s.phase = .idle ∧
       ∃ t, exec (.setWriteEnable ⟨0, 0, 0⟩) s = .next t ∧ t.frameActive = true) :=
  ⟨⟨rfl, rfl, rfl, rfl, rfl, _, rfl, rfl⟩, rfl, rfl, _, rfl, rfl⟩

/-- The clause on the commands that read: the step that ends a GET_STATUS, with the responder behind the port. -/
theorem witness_CommandFrame_reads :
    let s := { during .data 0x5 0 1 0 0 [] with
                link := .responder [], chip := { Chip.initial with sr := 0x02, rx := some [0x05] }
                trace := [.frameBegin, .xchg 0x05 0 false] }
    rowOf (.getStatus ⟨0, 0, 0⟩) = some rowGetStatus ∧ rowGetStatus.dir = .read ∧ s.positioned = true ∧ s.headerSent ∧
      s.chipFollows ∧ s.lOp = rowGetStatus.op ∧
      ∃ t, exec (.getStatus ⟨0, 0, 0⟩) s = .next t ∧ t.frameActive = false := by
  refine ⟨rfl, rfl, by decide, ?_, fun _ _ => rfl, rfl, _, rfl, rfl⟩
  intro d w hd hw
  cases hd
  cases hw
  exact ⟨by decide, by decide⟩

/-- A reset that cuts a frame of the responder, and one of an idle block. -/
theorem witness_ResetClearsTheBlock :
    (let s := { during .data 0x2 0x0000FC 4 2 0 [] with link := .responder [], agenda := [.reset, .turn] }
     s.agenda = [.reset, .turn] ∧ s.frameActive = true ∧ s.link.attached = true) ∧
    (let s := { State.reset with rData := 0xAB, agenda := [.reset] }
     s.agenda = [.reset] ∧ s.frameActive = false) := by
  decide

theorem witness_HostRegisters :
    let s := { State.reset with agenda := [.hostRegWrite 7 0xFFFFFFFF] }
    s.agenda = [.hostRegWrite 7 0xFFFFFFFF] := by
  decide

/-- The last index of BUF, with a value that is listed and one that is not. -/
theorem witness_HostStoreChangesOneByte :
    ∀ v ∈ [(0xFF : Byte), 0x00],
      let s := { State.reset with buf := [(0xFFFFFFFF, 0x11)], agenda := [.hostStore 0xFFFFFFFF v] }
      s.buf.wf = true ∧ s.agenda = [.hostStore 0xFFFFFFFF v] := by
  decide

/-- A frame that waits and one that is sent. -/
theorem witness_WireFrame :
    encode (.wireWrite 0x0002FE [0x11, 0x22, 0x33]) = .frame [0x02, 0x00, 0x02, 0xFE, 0x11, 0x22, 0x33] ∧
    (during .data 0x4 0 1 0 0 []).frameActive = true ∧ (withSr 0x02).frameActive = false := by
  decide

/-- With and without a write cycle, and with the protection bits set. -/
theorem witness_WrenAndWrdiMoveTheLatch :
    (withSr 0x00).frameActive = false ∧ (withSr 0x00).chip.wip = false ∧
    (withSr 0x03).frameActive = false ∧ (withSr 0x03).chip.wip = true ∧
    (withSr 0x8C).frameActive = false ∧ (withSr 0x8C).chip.wip = false := by
  decide

/-- Of WrsrWritesTheStatusRegister, WriteFrameStoresInOnePage, WriteIdFrameStoresInTheIdPage and LockIdFrameLocks: a
chip that accepts a write frame, one without WEL and one in its write cycle. -/
theorem witness_write_frames :
    ∀ sr ∈ [(0x02 : Byte), 0x00, 0x03],
      (withSr sr).frameActive = false ∧ (withSr sr).chip.sr &&& 0x8C = 0 ∧ (withSr sr).chip.wip = sr.getLsbD 0 ∧
        (withSr sr).chip.wel = sr.getLsbD 1 := by
  decide

/-- Each protection bit alone. -/
theorem witness_ProtectedWriteFramesAreAllOrNothing :
    ∀ sr ∈ [(0x82 : Byte), 0x0A, 0x06],
      (withSr sr).frameActive = false ∧ (withSr sr).chip.sr &&& 0x8C ≠ 0 ∧ (withSr sr).chip.wip = false := by
  decide

theorem witness_ReadFramesAnswerTheArrays :
    (withSr 0x00).frameActive = false ∧ (withSr 0x00).chip.wip = false := by
  decide

/-- During a write cycle and outside one. -/
theorem witness_WriteCycleDoneClearsWipAndWel :
    ∀ sr ∈ [(0x8F : Byte), 0x02],
      let s := { withSr sr with agenda := [.writeCycleDone] }
      s.agenda = [.writeCycleDone] ∧ s.chip.wip = sr.getLsbD 0 := by
  decide

/-- A write that ends at its page's end. -/
theorem witness_PageWriteReadsBack :
    let s := withSr 0x02
    s.frameActive = false ∧ s.chip.mem.wf = true ∧ s.chip.sr &&& 0x8C = 0 ∧ s.chip.wel = true ∧ s.chip.wip = false ∧
      ([0x11, 0xFF] : List Byte) ≠ [] ∧ (0x03FFFE : FrameAddr).toNat % 256 + ([0x11, 0xFF] : List Byte).length ≤ 256 := by
  decide

/-- The last address. -/
theorem witness_ByteWriteReadsBack :
    let s := { State.reset with
                cmd := [⟨0x7, ⟨0, 0, 0⟩⟩, ⟨0x1, ⟨0x3FFFF, 0, 0xAB⟩⟩, ⟨0x3, ⟨0x3FFFF, 0, 0⟩⟩]
                agenda := List.replicate 8 Event.turn ++ [Event.writeCycleDone] }
    (0x3FFFF : HostAddr).toNat < 0x40000 ∧ s.phase = .idle ∧ s.bus = [] ∧ s.link = .responder [] ∧
      s.chip.wip = false ∧ s.chip.sr &&& 0x8C = 0 ∧ s.chip.mem.wf = true ∧
      s.agenda = List.replicate 8 Event.turn ++ [Event.writeCycleDone] := by
  decide

end Sys2Proof.Tests
end

section
/-! PROOFS. What the block's turn and a step can do, once for every later proof: an idle block's turn, the fields an
exchange leaves alone, what a position says about the command in progress. -/

namespace Sys2Proof.Machine

/-! ### A frame that decodes is sent as it stands -/

@[simp] theorem addrBytes_addrOfBytes (hi mid lo : Byte) : addrBytes (addrOfBytes hi mid lo) = [hi, mid, lo] := by
  simp only [addrBytes, addrHi, addrMid, addrLo, addrOfBytes, List.cons.injEq, and_true]
  refine ⟨?_, ?_, ?_⟩ <;> ext i hi <;> grind

theorem noData_ok {rest : List Byte} {i j : Instr} (h : noData rest i = .ok j) : j = i ∧ rest = [] := by
  cases rest with
  | nil => cases h; exact ⟨rfl, rfl⟩
  | cons b bs => cases h

theorem oneDummy_ok {rest : List Byte} {i j : Instr} (h : oneDummy rest i = .ok j) :
    j = i ∧ rest = [Config.dummy] := by
  unfold oneDummy at h
  split at h
  · split at h
    · rename_i hd; cases h; exact ⟨rfl, by rw [hd]⟩
    · cases h
  · cases h

theorem oneData_ok {rest : List Byte} {i : Byte → Instr} {j : Instr} (h : oneData rest i = .ok j) :
    ∃ d, j = i d ∧ rest = [d] := by
  unfold oneData at h
  split at h
  · cases h; exact ⟨_, rfl, rfl⟩
  · cases h

theorem readStream_ok {ds : List Byte} {i : Nat → Instr} {j : Instr} (h : readStream ds i = .ok j) :
    j = i ds.length ∧ List.replicate ds.length Config.dummy = ds := by
  unfold readStream at h
  split at h
  · cases h
  · split at h
    · rename_i hall
      cases h
      exact ⟨rfl, (List.eq_replicate_iff.mpr ⟨rfl, by simpa [allDummy] using hall⟩).symm⟩
    · cases h

theorem writeStream_ok {ds : List Byte} {i : List Byte → Instr} {j : Instr} (h : writeStream ds i = .ok j) :
    j = i ds := by
  unfold writeStream at h
  split at h
  · cases h; rfl
  · cases h

/-- A wire row's meaning sends the very frame it was decoded from (R105). -/
theorem exec_of_decodeFrame {f : List Byte} {i : Instr} (h : decodeFrame f = .ok i) (s : State) :
    exec i s = .next (s.foreignFrame f) := by
  unfold decodeFrame at h
  split at h
  · cases h
  · rename_i op rest
    split at h
    case h_9 => cases h
    all_goals
      rename_i hop
      obtain ⟨-, rfl⟩ := BitVec.toNat_eq_nat.mp hop
    case h_1 => obtain ⟨rfl, rfl⟩ := noData_ok h; rfl
    case h_2 => obtain ⟨rfl, rfl⟩ := noData_ok h; rfl
    case h_3 => obtain ⟨rfl, rfl⟩ := oneDummy_ok h; rfl
    case h_4 => obtain ⟨d, rfl, rfl⟩ := oneData_ok h; rfl
    case h_5 =>
      split at h
      · rename_i hi mid lo ds
        obtain ⟨rfl, hds⟩ := readStream_ok h
        simp only [exec, execWireRead, hds, addrBytes_addrOfBytes]; rfl
      · cases h
    case h_6 =>
      split at h
      · obtain rfl := writeStream_ok h
        simp [exec, execWireWrite]
      · cases h
    case h_7 =>
      split at h
      · split at h
        · rename_i hpage
          obtain ⟨rfl, hds⟩ := readStream_ok h
          simp only [exec, execWireReadId, hds, hpage]; rfl
        · split at h
          · rename_i haddr
            obtain ⟨rfl, rfl⟩ := oneDummy_ok h
            simp [exec, execWireReadLockStatus, ← haddr]
          · cases h
      · cases h
    case h_8 =>
      split at h
      · split at h
        · rename_i hpage
          obtain rfl := writeStream_ok h
          simp [exec, execWireWriteId, hpage]
        · split at h
          · rename_i haddr
            obtain ⟨d, rfl, rfl⟩ := oneData_ok h
            simp [exec, execWireLockId, ← haddr]
          · cases h
      · cases h

/-! ### The block's turn -/

/-- An idle block waits, lets another master's frame pass, or issues the offered command; a reserved code is issued
too. -/
theorem move_idle_cases {s : State} (hp : s.phase = .idle) :
    (s.bus = [] ∧ s.cmd = [] ∧ move s = .next s) ∨
    (∃ f fs, s.bus = f :: fs ∧ move s = .next (s.foreignFrame f)) ∨
    (∃ c cs d, s.bus = [] ∧ s.cmd = c :: cs ∧ descriptor c.op = some d ∧ move s = .next (d.issue c.payload s)) ∨
    (∃ c cs, s.bus = [] ∧ s.cmd = c :: cs ∧ descriptor c.op = none ∧ move s = .next (s.issueReserved c.op)) := by
  cases hb : s.bus with
  | cons f fs =>
    refine Or.inr (Or.inl ⟨f, fs, rfl, ?_⟩)
    cases hi : decodeFrame f with
    | ok i => rw [move_idle_frame hp hb hi, exec_of_decodeFrame hi]
    | error e => simp [move, State.fetch, hp, hb, hi]
  | nil =>
    cases hc : s.cmd with
    | nil => exact Or.inl ⟨rfl, rfl, move_idle_nothing hp hb hc⟩
    | cons c cs =>
      cases hd : descriptor c.op with
      | some d => exact Or.inr (Or.inr (Or.inl ⟨c, cs, d, rfl, rfl, hd, move_idle_command hp hb hc hd⟩))
      | none =>
        refine Or.inr (Or.inr (Or.inr ⟨c, cs, rfl, rfl, hd, ?_⟩))
        rcases decodeCommand_row c with ⟨i, d, -, hd', -⟩ | ⟨he, -⟩
        · simp [hd] at hd'
        · simp [move, State.fetch, hp, hb, hc, he]

/-- A step that gives a next state is the block's turn or an event of another agent, taken once the agenda has been
moved on. -/
theorem step_next_cases {s t : State} (h : step s = .next t) :
    ∃ es, move { s with agenda := es } = .next t ∨
      ∃ e, e ≠ .turn ∧ t = environment e { s with agenda := es } := by
  rcases step_cases s with ⟨ha, hm⟩ | ⟨es, -, hm⟩ | ⟨e, es, -, he, hm⟩
  · exact ⟨[], Or.inl (by rw [← ha, ← hm, h])⟩
  · exact ⟨es, Or.inl (hm ▸ h)⟩
  · rw [h] at hm
    cases hm
    exact ⟨es, Or.inr ⟨e, he, rfl⟩⟩

/-! ### What an exchange leaves alone -/

section
variable {s : State} {out : Byte} {x : Exchanged}

theorem State.xchg_phase (h : s.xchg out = some x) : x.after.phase = s.phase := by
  rw [(State.xchg_spec h).1]
theorem State.xchg_idx (h : s.xchg out = some x) : x.after.idx = s.idx := by
  rw [(State.xchg_spec h).1]
theorem State.xchg_lOp (h : s.xchg out = some x) : x.after.lOp = s.lOp := by
  rw [(State.xchg_spec h).1]
theorem State.xchg_faddr (h : s.xchg out = some x) : x.after.faddr = s.faddr := by
  rw [(State.xchg_spec h).1]
theorem State.xchg_lLen (h : s.xchg out = some x) : x.after.lLen = s.lLen := by
  rw [(State.xchg_spec h).1]
theorem State.xchg_trace (h : s.xchg out = some x) :
    x.after.trace = s.trace ++ [.xchg out x.inp x.fail] := by
  rw [(State.xchg_spec h).1]

end

/-- What holds after waiting, after a failure and after the normal end holds after an exchange step. -/
theorem State.exchange_ind {P : State → Prop} {s pre t : State} {out : Byte} {next : Byte → State → State}
    (h : s.exchange pre out next = .next t) (wait : P s)
    (failed : ∀ x, pre.xchg out = some x → x.fail = true → P (x.after.raise .transportFailure))
    (done : ∀ x, pre.xchg out = some x → x.fail = false → P (next x.inp x.after)) : P t := by
  rcases s.exchange_cases pre out next with ⟨-, he⟩ | ⟨x, hx, hf, he⟩ | ⟨x, hx, hf, he⟩ <;>
    (rw [h] at he; cases he)
  · exact wait
  · exact failed x hx hf
  · exact done x hx hf

/-! ### What a position says -/

/-- A busy block at a position has a row for its latched code. -/
theorem State.positioned_row {s : State} (hs : s.positioned = true) (hp : s.phase ≠ .idle) :
    ∃ d, descriptor s.lOp = some d := by
  cases hd : descriptor s.lOp with
  | some d => exact ⟨d, rfl⟩
  | none =>
    cases hph : s.phase <;> simp [State.positioned, hph, hd] at hs hp
    simp [hs, descriptor] at hd

section
variable {s : State} {d : Descriptor}

/-- A command with an open frame stands where its row allows. -/
theorem State.positioned_fits (hs : s.positioned = true) (hf : s.frameActive = true)
    (hd : descriptor s.lOp = some d) : d.positionFits s = true := by
  cases hph : s.phase <;> simp_all [State.positioned, State.frameActive, Phase.inFrame]

theorem Descriptor.positionFits_wop (h : d.positionFits s = true) : ∃ w, d.wop = some w := by
  simp only [Descriptor.positionFits, Bool.and_eq_true] at h
  exact Option.isSome_iff_exists.mp h.1.1.1

theorem Descriptor.positionFits_length (h : d.positionFits s = true) : d.lengthFits s.lLen = true := by
  simp only [Descriptor.positionFits, Bool.and_eq_true] at h
  exact h.1.1.2

theorem Descriptor.positionFits_idx (h : d.positionFits s = true) (hf : s.frameActive = true)
    (hp : s.phase ≠ .data) : s.idx = 0 := by
  cases hph : s.phase <;> simp_all [Descriptor.positionFits, State.frameActive, Phase.inFrame]

theorem Descriptor.positionFits_addr (h : d.positionFits s = true)
    (hp : s.phase = .ahi ∨ s.phase = .amid ∨ s.phase = .alo) : d.akind ≠ .noAddr := by
  rcases hp with hp | hp | hp <;> simp_all [Descriptor.positionFits]

theorem Descriptor.positionFits_data (h : d.positionFits s = true) (hp : s.phase = .data) :
    s.idx < s.lLen := by
  simp_all [Descriptor.positionFits]

end

end Sys2Proof.Machine
end

section
/-! PROOFS. What the open frame has sent (R33, R104): the header as far as PHASE has come, then IDX data bytes. -/

namespace Sys2Proof.Machine

/-! ### The bytes of the last frame -/

@[simp] theorem lastFrameBytes_frameBegin (t : List WireEvent) : lastFrameBytes (t ++ [.frameBegin]) = [] := by
  simp [lastFrameBytes, sentAfter]

@[simp] theorem lastFrameBytes_xchg (t : List WireEvent) (out inp : Byte) (fail : Bool) :
    lastFrameBytes (t ++ [.xchg out inp fail]) = lastFrameBytes t ++ [out] := by
  simp [lastFrameBytes, sentAfter]

/-! ### `headerSent`, phase by phase -/

/-- The header bytes sent when PHASE is reached, all of them in DATA (R104, R156). -/
def Descriptor.headerUpTo (d : Descriptor) (w : Byte) (a : FrameAddr) : Phase → List Byte
  | .idle => []
  | .tinit => []
  | .opc => []
  | .ahi => [w]
  | .amid => [w, addrHi a]
  | .alo => [w, addrHi a, addrMid a]
  | .data => d.header w a

theorem State.headerSent_of_noFrame {s : State} (h : s.frameActive = false) : s.headerSent := by
  intro d w _ _
  cases hp : s.phase <;> simp [State.frameActive, Phase.inFrame, hp] at h ⊢

/-- `headerSent` looks at five fields only. -/
theorem State.headerSent_congr {s t : State} (ho : t.lOp = s.lOp) (hp : t.phase = s.phase)
    (ht : t.trace = s.trace) (ha : t.faddr = s.faddr) (hi : t.idx = s.idx) (h : s.headerSent) : t.headerSent := by
  unfold State.headerSent at h ⊢
  rwa [ho, hp, ht, ha, hi]

section
variable {s : State} {d : Descriptor} {w : Byte}

/-- The row and the wire opcode of a command are the ones its code selects. -/
theorem forall_row_iff {op : OpCode} (hd : descriptor op = some d) (hw : d.wop = some w)
    {P : Descriptor → Byte → Prop} :
    (∀ d' w', descriptor op = some d' → d'.wop = some w' → P d' w') ↔ P d w := by
  refine ⟨fun h => h d w hd hw, fun h d' w' hd' hw' => ?_⟩
  obtain rfl := Option.some.inj (hd.symm.trans hd')
  obtain rfl := Option.some.inj (hw.symm.trans hw')
  exact h

theorem State.headerSent_header (hd : descriptor s.lOp = some d) (hw : d.wop = some w) (hf : s.frameActive = true)
    (hp : s.phase ≠ .data) : s.headerSent ↔ lastFrameBytes s.trace = d.headerUpTo w s.faddr s.phase := by
  rw [State.headerSent, forall_row_iff hd hw]
  cases h : s.phase <;> simp [State.frameActive, Phase.inFrame, h] at hf hp <;> rfl

theorem State.headerSent_data (hd : descriptor s.lOp = some d) (hw : d.wop = some w) (hp : s.phase = .data) :
    s.headerSent ↔ d.header w s.faddr <+: lastFrameBytes s.trace ∧
      (lastFrameBytes s.trace).length = (d.header w s.faddr).length + s.idx.toNat := by
  rw [State.headerSent, forall_row_iff hd hw, hp]

/-- With IDX = 0 a frame that has sent the header up to PHASE, and nothing else, has sent what it should. -/
theorem State.headerSent_of_headerUpTo (hd : descriptor s.lOp = some d) (hw : d.wop = some w) (hi : s.idx = 0)
    (ht : lastFrameBytes s.trace = d.headerUpTo w s.faddr s.phase) : s.headerSent := by
  by_cases hf : s.frameActive = true
  · by_cases hp : s.phase = .data
    · rw [hp] at ht
      rw [State.headerSent_data hd hw hp, ht, hi]
      exact ⟨List.prefix_rfl, rfl⟩
    · exact (State.headerSent_header hd hw hf hp).mpr ht
  · exact State.headerSent_of_noFrame (by simpa using hf)

/-! ### The ends of the steps -/

theorem Descriptor.afterOpcode_headerSent (hd : descriptor s.lOp = some d) (hw : d.wop = some w) (hi : s.idx = 0)
    (ht : lastFrameBytes s.trace = [w]) : (d.afterOpcode s).headerSent := by
  unfold Descriptor.afterOpcode
  split
  · exact State.headerSent_of_headerUpTo (by exact hd) hw hi ht
  · rename_i hk
    have hheader : d.header w s.faddr = [w] := if_pos (not_not.mp hk)
    split
    · exact State.headerSent_of_noFrame s.finish_frameActive
    · exact State.headerSent_of_headerUpTo (by exact hd) hw hi (ht.trans hheader.symm)

theorem State.afterAddress_headerSent (hd : descriptor s.lOp = some d) (hw : d.wop = some w) (hi : s.idx = 0)
    (ht : lastFrameBytes s.trace = d.header w s.faddr) : s.afterAddress.headerSent := by
  unfold State.afterAddress
  split
  · exact State.headerSent_of_noFrame s.finish_frameActive
  · exact State.headerSent_of_headerUpTo (by exact hd) hw hi ht

/-- An index below another one does not wrap when it is counted up. -/
theorem Len.toNat_add_one {i n : Len} (h : i < n) : (i + 1).toNat = i.toNat + 1 := by
  have hn : n.toNat < 2 ^ Config.lenW := n.isLt
  have hi : i.toNat < n.toNat := BitVec.lt_def.mp h
  rw [BitVec.toNat_add, show (1 : Len).toNat = 1 from rfl, Nat.mod_eq_of_lt (by omega)]

/-- A DATA step that leaves the frame open counts one more byte; IDX does not wrap, as it stands below L_LEN. -/
theorem Descriptor.afterData_headerSent (hd : descriptor s.lOp = some d) (hw : d.wop = some w)
    (hp : s.phase = .data) (hi : s.idx < s.lLen) (inp : Byte)
    (hpre : d.header w s.faddr <+: lastFrameBytes s.trace)
    (hlen : (lastFrameBytes s.trace).length = (d.header w s.faddr).length + s.idx.toNat + 1) :
    (d.afterData inp s).headerSent := by
  unfold Descriptor.afterData
  dsimp only
  split
  · exact State.headerSent_of_noFrame (State.finish_frameActive _)
  · refine (State.headerSent_data (d := d) (w := w) (by simpa using hd) hw (by simpa using hp)).mpr ⟨?_, ?_⟩
    · simpa using hpre
    · simp only [Descriptor.dataIn_trace, Descriptor.dataIn_faddr, hlen, Len.toNat_add_one hi, Nat.add_assoc]

end

/-! ### The steps -/

/-- An exchange step keeps `headerSent` once its normal end gives it: waiting changes nothing and a failure ends the
frame. -/
theorem State.exchange_headerSent {s pre t : State} {out : Byte} {next : Byte → State → State}
    (h : s.exchange pre out next = .next t) (hs : s.headerSent)
    (done : ∀ x, pre.xchg out = some x → (next x.inp x.after).headerSent) : t.headerSent :=
  State.exchange_ind h hs (fun x _ _ => State.headerSent_of_noFrame (x.after.raise_frameActive _))
    (fun x hx _ => done x hx)

/-- The next step of the command in progress sends the byte its position calls for. -/
theorem Descriptor.advance_headerSent {d : Descriptor} {s t : State} (hd : descriptor s.lOp = some d)
    (hpos : s.positioned = true) (hs : s.headerSent) (h : d.advance s = .next t) : t.headerSent := by
  have hfits := State.positioned_fits (d := d) hpos
  unfold Descriptor.advance at h
  cases hp : s.phase <;> simp only [hp] at h
  case idle => cases h; exact hs
  case tinit =>
    split at h <;> cases h
    · exact hs
    · exact State.headerSent_of_noFrame rfl
  all_goals
    have hf : s.frameActive = true := by simp [State.frameActive, hp, Phase.inFrame]
    replace hfits := hfits hf hd
    obtain ⟨w, hw⟩ := Descriptor.positionFits_wop hfits
    have hidx := Descriptor.positionFits_idx hfits hf
    have haddr := Descriptor.positionFits_addr hfits
    rw [hp] at hidx haddr
  case opc =>
    have hsent := (State.headerSent_header hd hw hf (by simp [hp])).mp hs
    rw [hw] at h
    refine State.exchange_headerSent h hs fun x hx => ?_
    refine Descriptor.afterOpcode_headerSent (by rwa [State.xchg_lOp hx]) hw ?_ ?_
    · rw [State.xchg_idx hx]; exact hidx nofun
    · simp [State.xchg_trace hx, hsent, hp, Descriptor.headerUpTo]
  case ahi | amid =>
    have hsent := (State.headerSent_header hd hw hf (by simp [hp])).mp hs
    refine State.exchange_headerSent h hs fun x hx => ?_
    refine State.headerSent_of_headerUpTo (d := d) (w := w) (by simpa [State.xchg_lOp hx] using hd) hw ?_ ?_
    · simpa [State.xchg_idx hx] using hidx nofun
    · simp [State.xchg_trace hx, State.xchg_faddr hx, hsent, hp, Descriptor.headerUpTo]
  case alo =>
    have hsent := (State.headerSent_header hd hw hf (by simp [hp])).mp hs
    refine State.exchange_headerSent h hs fun x hx => ?_
    refine State.afterAddress_headerSent (d := d) (w := w) (by rwa [State.xchg_lOp hx]) hw ?_ ?_
    · rw [State.xchg_idx hx]; exact hidx nofun
    · have hheader : d.header w s.faddr = w :: addrBytes s.faddr := if_neg (haddr (by simp))
      simp [State.xchg_trace hx, State.xchg_faddr hx, hsent, hp, Descriptor.headerUpTo, hheader, addrBytes]
  case data =>
    obtain ⟨hpre, hlen⟩ := (State.headerSent_data hd hw hp).mp hs
    split at h
    · cases h
    · refine State.exchange_headerSent h hs fun x hx => ?_
      refine Descriptor.afterData_headerSent (w := w) (by simpa [State.xchg_lOp hx] using hd) hw ?_ ?_ _ ?_ ?_
      · simpa [State.xchg_phase hx] using hp
      · simpa [State.xchg_idx hx, State.xchg_lLen hx] using Descriptor.positionFits_data hfits hp
      · simpa [State.xchg_trace hx, State.xchg_faddr hx] using hpre.trans (List.prefix_append _ _)
      · simp [State.xchg_trace hx, State.xchg_faddr hx, State.xchg_idx hx, hlen]

/-- An issue opens a frame that has sent nothing, or no frame at all. -/
theorem Descriptor.issue_headerSent (d : Descriptor) (p : Payload) (s : State) :
    (d.issue p s).headerSent := by
  rcases d.issue_cases p s with ⟨e, -, h⟩ | ⟨-, h⟩ <;> rw [h]
  · exact State.headerSent_of_noFrame (State.raise_frameActive _ _)
  · unfold Descriptor.accept
    cases hw : d.wop with
    | none => exact State.headerSent_of_noFrame rfl
    | some w =>
      intro d' w' _ _
      simp

theorem move_headerSent {s t : State} (hpos : s.positioned = true) (hs : s.headerSent) (h : move s = .next t) :
    t.headerSent := by
  by_cases hp : s.phase = .idle
  · have hf : s.frameActive = false := by simp [State.frameActive, hp, Phase.inFrame]
    rcases move_idle_cases hp with ⟨-, -, hm⟩ | ⟨f, fs, -, hm⟩ | ⟨c, cs, d, -, -, -, hm⟩ | ⟨c, cs, -, -, -, hm⟩ <;>
      (rw [h] at hm; cases hm)
    · exact hs
    · rw [State.foreignFrame_rest hf]
      exact State.headerSent_of_noFrame hf
    · exact d.issue_headerSent c.payload s
    · exact State.headerSent_of_noFrame (State.raise_frameActive _ _)
  · obtain ⟨d, hd⟩ := State.positioned_row hpos hp
    exact Descriptor.advance_headerSent hd hpos hs (move_busy hp hd ▸ h)

/-- Another agent's event leaves the open frame alone, or is a reset, which ends it. -/
theorem environment_headerSent (e : Event) {s : State} (hs : s.headerSent) : (environment e s).headerSent := by
  cases e with
  | reset => exact State.headerSent_of_noFrame (by simp [environment, State.frameActive, Phase.inFrame])
  | turn | hostOffer | hostStore | hostRegWrite | busRequest | writeCycleDone =>
    exact State.headerSent_congr rfl rfl rfl rfl rfl hs

/-- Settles O34: the block's turn sends the byte the position calls for, and no other agent's event adds to an open
frame. -/
theorem headerIsSentFirst : Obligations.HeaderIsSentFirst := by
  intro s t hpos hs hstep
  obtain ⟨es, hm | ⟨e, -, rfl⟩⟩ := step_next_cases hstep
  · exact move_headerSent (s := { s with agenda := es }) hpos (State.headerSent_congr rfl rfl rfl rfl rfl hs) hm
  · exact environment_headerSent e (State.headerSent_congr rfl rfl rfl rfl rfl hs)

end Sys2Proof.Machine
end

section
/-! PROOFS. A positioned machine goes on (R13, R45). -/

namespace Sys2Proof.Machine

/-! ### The rows that send no data -/

theorem descriptor_noData_length : ∀ op, ∀ d ∈ descriptor op, d.dir = .noData → d.nlen = .fixed 0 := by decide

theorem descriptor_write_src : ∀ op, ∀ d ∈ descriptor op, d.dir = .write → d.src ≠ .noSrc := by decide

/-- A command whose data phase is not empty has a byte to send in it (R101, R116). -/
theorem Descriptor.dataOut_isSome {s : State} {d : Descriptor} (hd : descriptor s.lOp = some d)
    (hl : d.lengthFits s.lLen = true) (hn : s.lLen ≠ 0) : ∃ out, d.dataOut s = some out := by
  cases hdir : d.dir with
  | noData =>
    simp [Descriptor.lengthFits, descriptor_noData_length _ d hd hdir] at hl
    exact absurd hl hn
  | read => exact ⟨_, by simp [Descriptor.dataOut, hdir]; rfl⟩
  | write =>
    cases hsrc : d.src with
    | noSrc => exact absurd hsrc (descriptor_write_src _ d hd hdir)
    | lData | buf | const => simp [Descriptor.dataOut, hdir, hsrc]

/-! ### The steps -/

/-- The command in progress has a byte to send wherever its position calls for one. -/
theorem Descriptor.advance_goesOn {d : Descriptor} {s : State} (hd : descriptor s.lOp = some d)
    (hpos : s.positioned = true) : ∃ t, d.advance s = .next t := by
  have hfits := State.positioned_fits (d := d) hpos
  unfold Descriptor.advance
  cases hp : s.phase <;> dsimp only
  case idle => exact ⟨_, rfl⟩
  case tinit => split <;> exact ⟨_, rfl⟩
  all_goals replace hfits := hfits (by simp [State.frameActive, hp, Phase.inFrame]) hd
  case opc =>
    obtain ⟨w, hw⟩ := Descriptor.positionFits_wop hfits
    rw [hw]
    exact State.exchange_next ..
  case ahi | amid | alo => exact State.exchange_next ..
  case data =>
    have hlt := Descriptor.positionFits_data hfits hp
    obtain ⟨out, hout⟩ := Descriptor.dataOut_isSome hd (Descriptor.positionFits_length hfits)
      (fun h0 => by simp [h0] at hlt)
    rw [hout]
    exact State.exchange_next ..

theorem move_goesOn {s : State} (hpos : s.positioned = true) : ∃ t, move s = .next t := by
  by_cases hp : s.phase = .idle
  · rcases move_idle_cases hp with ⟨-, -, hm⟩ | ⟨f, fs, -, hm⟩ | ⟨c, cs, d, -, -, -, hm⟩ | ⟨c, cs, -, -, -, hm⟩ <;>
      exact ⟨_, hm⟩
  · obtain ⟨d, hd⟩ := State.positioned_row hpos hp
    rw [move_busy hp hd]
    exact Descriptor.advance_goesOn hd hpos

/-- Settles O29: the block's turn goes on at every position, and the events of the other agents always do. -/
theorem positionedMachineGoesOn : Obligations.PositionedMachineGoesOn := by
  intro s hpos
  unfold State.goesOn
  rcases step_cases s with ⟨-, hm⟩ | ⟨es, -, hm⟩ | ⟨e, es, -, -, hm⟩ <;> rw [hm]
  · exact move_goesOn hpos
  · exact move_goesOn hpos
  · exact ⟨_, rfl⟩

end Sys2Proof.Machine
end

section
/-! PROOFS. Everything an issue, the next step of the command in progress and the block's turn can do, as inductive
relations: a later proof splits along their constructors and unfolds no operation. -/

namespace Sys2Proof.Machine

/-! ### Frames and phases -/

theorem State.frameActive_of_idle {s : State} (h : s.phase = .idle) : s.frameActive = false := by
  simp [State.frameActive, h, Phase.inFrame]

theorem State.busy_of_frameActive {s : State} (h : s.frameActive = true) : s.phase ≠ .idle := fun hp => by
  simp [State.frameActive_of_idle hp] at h

theorem State.tOut_opc {s : State} {d : Descriptor} (hd : descriptor s.lOp = some d) (hp : s.phase = .opc) :
    s.tOut = d.wop := by
  simp [State.tOut, hd, hp]

/-- A byte is presented in an open frame only (R38). -/
theorem State.frameActive_of_tOut {s : State} {out : Byte} (h : s.tOut = some out) : s.frameActive = true := by
  unfold State.tOut at h
  split at h
  · cases h
  · cases hp : s.phase <;> simp [hp, State.frameActive, Phase.inFrame] at h ⊢

/-! ### The issue -/

/-- The state after the issue of INIT (R142). -/
def State.issuedInit (s : State) (p : Payload) : State :=
  { s with
    cmd := s.cmd.tail
    rErr := .noError
    rData := 0
    rFlag := false
    idx := 0
    lOp := 0x0
    faddr := 0
    lLen := 0
    lData := p.data
    phase := .tinit }

/-- INIT is the one command without a frame (R101). -/
theorem descriptor_unframed : ∀ op, ∀ d ∈ descriptor op, d.wop = none → op = 0x0 ∧ d = rowInit := by decide

/-- An idle block raises an error without a frame to end (R246). -/
theorem State.beginIssue_raise {s : State} (hp : s.phase = .idle) (op : OpCode) (e : ErrorCode) :
    (s.beginIssue op).raise e = s.refused op e := by
  have hf : (s.beginIssue op).frameActive = false := State.frameActive_of_idle hp
  rw [State.raise, State.closeFrame, if_neg (by simp [hf])]
  simp [State.complete, State.beginIssue, State.refused, hp]

/-- A command is issued in one of three ways: refused by a check, accepted with a frame, or accepted without one. -/
theorem Descriptor.issue_idle_cases {op : OpCode} {d : Descriptor} (hd : descriptor op = some d) (p : Payload)
    {s : State} (hp : s.phase = .idle) :
    (∃ e, e ≠ .noError ∧ d.issue p s = s.refused op e) ∨
    (∃ w, d.wop = some w ∧
      d.issue p s = s.issued op (encodeAddr d.akind p.addr) (d.length p.len) p.data) ∨
    (op = 0x0 ∧ d.issue p s = s.issuedInit p) := by
  obtain rfl := descriptor_op hd
  rcases d.issue_cases p s with ⟨e, he, h⟩ | ⟨-, h⟩ <;> rw [h]
  · refine Or.inl ⟨e, ?_, State.beginIssue_raise hp d.op e⟩
    rintro rfl
    simpa using (Descriptor.issueError_spec he).2
  · cases hw : d.wop with
    | some w => exact Or.inr (Or.inl ⟨w, rfl, by simp only [Descriptor.accept, hw]; rfl⟩)
    | none =>
      obtain ⟨h0, rfl⟩ := descriptor_unframed d.op d hd hw
      exact Or.inr (Or.inr ⟨h0, rfl⟩)

/-! ### One exchange of the command in progress -/

/-- The state `u` is `s` after an exchange of the byte `out`: the link, the chip behind it, the draw counter, the log
of BUF and the trace have moved, and nothing else. -/
structure State.ExchangesTo (s : State) (out inp : Byte) (fail : Bool) (u : State) : Prop where
  rest : u = { s with
    link := u.link
    chip := u.chip
    draws := u.draws
    bufLog := u.bufLog
    trace := s.trace ++ [.xchg out inp fail] }
  chip : u.chip = s.chip ∨ u.chip = s.chip.receive out
  attached : u.link.attached = s.link.attached
  detached : s.link.attached = false → u.chip = s.chip ∧ u.draws = s.draws
  canFail : fail = true → s.cfg.tCanFail = true

theorem State.exchangesTo_of_xchg {s : State} {out : Byte} {x : Exchanged} (h : s.xchg out = some x) :
    s.ExchangesTo out x.inp x.fail x.after := by
  obtain ⟨hrest, hchip, hatt, hdet, hfail⟩ := State.xchg_spec h
  refine ⟨?_, hchip, hatt, hdet, hfail⟩
  rw [hrest]

/-- A data step notes its read of BUF before its exchange (R37, R116). -/
theorem State.exchangesTo_of_noted {s : State} {d : Descriptor} {out : Byte} {x : Exchanged}
    (h : (d.noteBufRead s).xchg out = some x) : s.ExchangesTo out x.inp x.fail x.after := by
  unfold Descriptor.noteBufRead at h
  split at h
  · obtain ⟨hrest, hchip, hatt, hdet, hfail⟩ := State.exchangesTo_of_xchg h
    exact ⟨hrest, hchip, hatt, hdet, hfail⟩
  · exact State.exchangesTo_of_xchg h

namespace State.ExchangesTo

variable {s u : State} {out inp : Byte} {fail : Bool}

theorem cfg (h : s.ExchangesTo out inp fail u) : u.cfg = s.cfg := by rw [h.rest]
theorem phase (h : s.ExchangesTo out inp fail u) : u.phase = s.phase := by rw [h.rest]
theorem idx (h : s.ExchangesTo out inp fail u) : u.idx = s.idx := by rw [h.rest]
theorem lOp (h : s.ExchangesTo out inp fail u) : u.lOp = s.lOp := by rw [h.rest]
theorem faddr (h : s.ExchangesTo out inp fail u) : u.faddr = s.faddr := by rw [h.rest]
theorem lLen (h : s.ExchangesTo out inp fail u) : u.lLen = s.lLen := by rw [h.rest]
theorem lData (h : s.ExchangesTo out inp fail u) : u.lData = s.lData := by rw [h.rest]
theorem rData (h : s.ExchangesTo out inp fail u) : u.rData = s.rData := by rw [h.rest]
theorem rFlag (h : s.ExchangesTo out inp fail u) : u.rFlag = s.rFlag := by rw [h.rest]
theorem rErr (h : s.ExchangesTo out inp fail u) : u.rErr = s.rErr := by rw [h.rest]
theorem buf (h : s.ExchangesTo out inp fail u) : u.buf = s.buf := by rw [h.rest]
theorem cmd (h : s.ExchangesTo out inp fail u) : u.cmd = s.cmd := by rw [h.rest]
theorem responses (h : s.ExchangesTo out inp fail u) : u.responses = s.responses := by
  rw [h.rest]
theorem trace (h : s.ExchangesTo out inp fail u) : u.trace = s.trace ++ [.xchg out inp fail] := by
  rw [h.rest]
theorem bus (h : s.ExchangesTo out inp fail u) : u.bus = s.bus := by rw [h.rest]
theorem busTrace (h : s.ExchangesTo out inp fail u) : u.busTrace = s.busTrace := by rw [h.rest]
theorem agenda (h : s.ExchangesTo out inp fail u) : u.agenda = s.agenda := by rw [h.rest]
theorem frameActive (h : s.ExchangesTo out inp fail u) : u.frameActive = s.frameActive :=
  congrArg Phase.inFrame h.phase

end State.ExchangesTo

/-! ### The next step of the command in progress -/

/-- What a good exchange does with the byte received, before the frame goes on or ends: a data step consumes it and
counts it, every other step discards it (R145 to R148). -/
def Descriptor.taken (d : Descriptor) (inp : Byte) (u : State) : State :=
  if u.phase = .data then { d.dataIn inp u with idx := u.idx + 1 } else u

section
variable (d : Descriptor) (inp : Byte) (u : State)

@[simp] theorem Descriptor.taken_cfg : (d.taken inp u).cfg = u.cfg := by
  unfold Descriptor.taken; split <;> simp
@[simp] theorem Descriptor.taken_phase : (d.taken inp u).phase = u.phase := by
  unfold Descriptor.taken; split <;> simp
@[simp] theorem Descriptor.taken_idx :
    (d.taken inp u).idx = if u.phase = .data then u.idx + 1 else u.idx := by
  unfold Descriptor.taken; split <;> simp
@[simp] theorem Descriptor.taken_lOp : (d.taken inp u).lOp = u.lOp := by
  unfold Descriptor.taken; split <;> simp
@[simp] theorem Descriptor.taken_faddr : (d.taken inp u).faddr = u.faddr := by
  unfold Descriptor.taken; split <;> simp
@[simp] theorem Descriptor.taken_lLen : (d.taken inp u).lLen = u.lLen := by
  unfold Descriptor.taken; split <;> simp
@[simp] theorem Descriptor.taken_lData : (d.taken inp u).lData = u.lData := by
  unfold Descriptor.taken; split <;> simp
@[simp] theorem Descriptor.taken_rErr : (d.taken inp u).rErr = u.rErr := by
  unfold Descriptor.taken; split <;> simp
@[simp] theorem Descriptor.taken_cmd : (d.taken inp u).cmd = u.cmd := by
  unfold Descriptor.taken; split <;> simp
@[simp] theorem Descriptor.taken_responses : (d.taken inp u).responses = u.responses := by
  unfold Descriptor.taken; split <;> simp
@[simp] theorem Descriptor.taken_trace : (d.taken inp u).trace = u.trace := by
  unfold Descriptor.taken; split <;> simp
@[simp] theorem Descriptor.taken_link : (d.taken inp u).link = u.link := by
  unfold Descriptor.taken; split <;> simp
@[simp] theorem Descriptor.taken_chip : (d.taken inp u).chip = u.chip := by
  unfold Descriptor.taken; split <;> simp
@[simp] theorem Descriptor.taken_bus : (d.taken inp u).bus = u.bus := by
  unfold Descriptor.taken; split <;> simp
@[simp] theorem Descriptor.taken_busTrace : (d.taken inp u).busTrace = u.busTrace := by
  unfold Descriptor.taken; split <;> simp
@[simp] theorem Descriptor.taken_draws : (d.taken inp u).draws = u.draws := by
  unfold Descriptor.taken; split <;> simp
@[simp] theorem Descriptor.taken_agenda : (d.taken inp u).agenda = u.agenda := by
  unfold Descriptor.taken; split <;> simp

variable {d}

theorem Descriptor.taken_rData (h : d.latchesRData = false) : (d.taken inp u).rData = u.rData := by
  unfold Descriptor.taken; split <;> simp [h]
theorem Descriptor.taken_rFlag (h : d.latchesRFlag = false) : (d.taken inp u).rFlag = u.rFlag := by
  unfold Descriptor.taken; split <;> simp [h]

/-- BUF changes at most at the index a data step stores to (R117). -/
theorem Descriptor.taken_buf_read {a : Nat} (h : u.phase = .data → ∀ k, d.storeIndex u = some k → a ≠ k.toNat) :
    (d.taken inp u).buf.read a = u.buf.read a := by
  unfold Descriptor.taken
  split
  · rename_i hp
    cases hk : d.storeIndex u with
    | none => simp [hk]
    | some k => simpa [hk] using Memory.read_write_other u.buf (h hp k hk) inp
  · rfl

end

/-- Where the frame goes after a good exchange whose byte has been taken; none where it ends (R145 to R148, R156). -/
def Descriptor.nextPhase (d : Descriptor) (v : State) : Option Phase :=
  match v.phase with
  | .idle => none
  | .tinit => none
  | .opc => if d.akind ≠ .noAddr then some .ahi else if v.lLen = 0 then none else some .data
  | .ahi => some .amid
  | .amid => some .alo
  | .alo => if v.lLen = 0 then none else some .data
  | .data => if v.idx = v.lLen then none else some .data

theorem Descriptor.nextPhase_inFrame {d : Descriptor} {v : State} {q : Phase} (h : d.nextPhase v = some q) :
    q.inFrame = true := by
  unfold Descriptor.nextPhase at h
  cases hp : v.phase <;> simp only [hp] at h
  case idle | tinit => cases h
  case ahi | amid => cases h; rfl
  case opc | alo | data => split_ifs at h <;> cases h <;> rfl

/-- Everything the next step of the command in progress can do (R144 to R151, R287). -/
inductive Descriptor.Advances (d : Descriptor) (s : State) : State → Prop
  /-- The transport does not answer. -/
  | waits : d.Advances s s
  /-- TInit has returned. -/
  | inits (u : State) (hp : s.phase = .tinit) (hu : s.transportInit = some u) :
      d.Advances s (State.complete { u with phase := .idle })
  /-- The exchange fails, which ends the frame. -/
  | fails (out inp : Byte) (u : State) (hout : s.tOut = some out) (hx : s.ExchangesTo out inp true u) :
      d.Advances s (u.raise .transportFailure)
  /-- The exchange is the frame's last. -/
  | ends (out inp : Byte) (u : State) (hout : s.tOut = some out) (hx : s.ExchangesTo out inp false u)
      (hq : d.nextPhase (d.taken inp u) = none) : d.Advances s (d.taken inp u).finish
  /-- The frame goes on. -/
  | goesOn (out inp : Byte) (u : State) (q : Phase) (hout : s.tOut = some out) (hx : s.ExchangesTo out inp false u)
      (hq : d.nextPhase (d.taken inp u) = some q) : d.Advances s { d.taken inp u with phase := q }

/-- The normal end of a step, by where the frame goes. -/
def Descriptor.proceed (d : Descriptor) (v : State) : State :=
  match d.nextPhase v with
  | none => v.finish
  | some q => { v with phase := q }

theorem Descriptor.afterOpcode_eq_proceed (d : Descriptor) {v : State} (hp : v.phase = .opc) :
    d.afterOpcode v = d.proceed v := by
  unfold Descriptor.afterOpcode Descriptor.proceed Descriptor.nextPhase
  rw [hp]
  dsimp only
  split_ifs <;> rfl

theorem State.afterAddress_eq_proceed (d : Descriptor) {v : State} (hp : v.phase = .alo) :
    v.afterAddress = d.proceed v := by
  unfold State.afterAddress Descriptor.proceed Descriptor.nextPhase
  rw [hp]
  dsimp only
  split_ifs <;> rfl

theorem Descriptor.afterData_eq_proceed (d : Descriptor) (inp : Byte) {u : State} (hp : u.phase = .data) :
    d.afterData inp u = d.proceed (d.taken inp u) := by
  have hv : d.taken inp u = { d.dataIn inp u with idx := u.idx + 1 } := if_pos hp
  have hself : { d.taken inp u with phase := .data } = d.taken inp u := by
    rw [hv, ← hp, ← d.dataIn_phase inp u]
  have hafter : d.afterData inp u =
      if (d.taken inp u).idx = (d.taken inp u).lLen then (d.taken inp u).finish else d.taken inp u := by
    rw [hv]; rfl
  rw [hafter, Descriptor.proceed, Descriptor.nextPhase, d.taken_phase, hp]
  dsimp only
  split_ifs
  · rfl
  · exact hself.symm

/-- An exchange step of the command in progress does one of the four things an exchange can. -/
theorem Descriptor.Advances.of_exchange {d : Descriptor} {s pre t : State} {out : Byte}
    {next : Byte → State → State} (hout : s.tOut = some out)
    (hpre : ∀ x, pre.xchg out = some x → s.ExchangesTo out x.inp x.fail x.after)
    (hnext : ∀ inp u, u.phase = s.phase → next inp u = d.proceed (d.taken inp u))
    (h : s.exchange pre out next = .next t) : d.Advances s t := by
  refine State.exchange_ind h .waits (fun x hx hf => ?_) (fun x hx hf => ?_)
  · exact .fails out x.inp x.after hout (hf ▸ hpre x hx)
  · have hxt : s.ExchangesTo out x.inp false x.after := hf ▸ hpre x hx
    rw [hnext _ _ hxt.phase]
    unfold Descriptor.proceed
    split
    · exact .ends out x.inp x.after hout hxt (by assumption)
    · exact .goesOn out x.inp x.after _ hout hxt (by assumption)

/-- A busy block's next step is one of those. -/
theorem Descriptor.advances_of_advance {d : Descriptor} {s t : State} (hd : descriptor s.lOp = some d)
    (hbusy : s.phase ≠ .idle) (h : d.advance s = .next t) : d.Advances s t := by
  have taken_of (p : Phase) (hp : s.phase = p) (hne : p ≠ .data) (inp : Byte) (u : State)
      (hu : u.phase = s.phase) : d.taken inp u = u := if_neg (by rwa [hu, hp])
  unfold Descriptor.advance at h
  cases hp : s.phase <;> simp only [hp] at h
  case idle => exact absurd hp hbusy
  case tinit =>
    split at h <;> cases h
    · exact .waits
    · exact .inits _ hp (by assumption)
  case opc =>
    split at h
    · cases h
    · rename_i w hw
      refine .of_exchange (by rw [State.tOut_opc hd hp, hw]) (fun x hx => State.exchangesTo_of_xchg hx) ?_ h
      intro inp u hu
      rw [taken_of _ hp nofun inp u hu]
      exact d.afterOpcode_eq_proceed (hu.trans hp)
  case ahi | amid =>
    refine .of_exchange (by simp [State.tOut, hd, hp]) (fun x hx => State.exchangesTo_of_xchg hx) ?_ h
    intro inp u hu
    rw [taken_of _ hp nofun inp u hu, Descriptor.proceed, Descriptor.nextPhase, hu, hp]
  case alo =>
    refine .of_exchange (by simp [State.tOut, hd, hp]) (fun x hx => State.exchangesTo_of_xchg hx) ?_ h
    intro inp u hu
    rw [taken_of _ hp nofun inp u hu]
    exact State.afterAddress_eq_proceed d (hu.trans hp)
  case data =>
    split at h
    · cases h
    · rename_i out hout
      refine .of_exchange (by simpa [State.tOut, hd, hp] using hout)
        (fun x hx => State.exchangesTo_of_noted hx) ?_ h
      intro inp u hu
      exact d.afterData_eq_proceed inp (hu.trans hp)

/-! ### The block's turn -/

/-- Everything the block's turn can do when it gives a next state (R33, R140, R257, R273). -/
inductive State.Moves (s : State) : State → Prop
  /-- Nothing is offered to an idle block. -/
  | waits (hp : s.phase = .idle) (hb : s.bus = []) (hc : s.cmd = []) : s.Moves s
  /-- A frame of another master goes first. -/
  | lets (f : List Byte) (fs : List (List Byte)) (hp : s.phase = .idle) (hb : s.bus = f :: fs) :
      s.Moves (s.foreignFrame f)
  /-- The offered command is refused, by a check or for its reserved code. -/
  | refuses (c : Command) (cs : List Command) (e : ErrorCode) (hp : s.phase = .idle) (hb : s.bus = [])
      (hc : s.cmd = c :: cs) (he : e ≠ .noError) : s.Moves (s.refused c.op e)
  /-- The offered command is accepted and opens its frame. -/
  | issues (c : Command) (cs : List Command) (d : Descriptor) (w : Byte) (hp : s.phase = .idle) (hb : s.bus = [])
      (hc : s.cmd = c :: cs) (hd : descriptor c.op = some d) (hw : d.wop = some w) :
      s.Moves (s.issued c.op (encodeAddr d.akind c.payload.addr) (d.length c.payload.len) c.payload.data)
  /-- INIT is accepted. -/
  | issuesInit (c : Command) (cs : List Command) (hp : s.phase = .idle) (hb : s.bus = []) (hc : s.cmd = c :: cs)
      (hop : c.op = 0x0) : s.Moves (s.issuedInit c.payload)
  /-- The command in progress takes its next step. -/
  | advances (d : Descriptor) (t : State) (hp : s.phase ≠ .idle) (hd : descriptor s.lOp = some d)
      (ht : d.Advances s t) : s.Moves t

theorem State.moves_of_move {s t : State} (h : move s = .next t) : s.Moves t := by
  by_cases hp : s.phase = .idle
  · rcases move_idle_cases hp with ⟨hb, hc, hm⟩ | ⟨f, fs, hb, hm⟩ | ⟨c, cs, d, hb, hc, hd, hm⟩ |
      ⟨c, cs, hb, hc, -, hm⟩ <;> (rw [h] at hm; cases hm)
    · exact .waits hp hb hc
    · exact .lets f fs hp hb
    · rcases Descriptor.issue_idle_cases hd c.payload hp with ⟨e, he, hi⟩ | ⟨w, hw, hi⟩ | ⟨hop, hi⟩ <;> rw [hi]
      · exact .refuses c cs e hp hb hc he
      · exact .issues c cs d w hp hb hc hd hw
      · exact .issuesInit c cs hp hb hc hop
    · rw [State.issueReserved, State.beginIssue_raise hp]
      exact .refuses c cs .illegalCommand hp hb hc nofun
  · cases hd : descriptor s.lOp with
    | none => rw [move_unreachable hp hd] at h; cases h
    | some d => exact .advances d t hp hd (Descriptor.advances_of_advance hd hp (move_busy hp hd ▸ h))

end Sys2Proof.Machine
end

section
/-! PROOFS. The positions the block can stand at (R22, R33, R45): every step keeps them, so every run does. -/

namespace Sys2Proof.Machine

/-! ### What makes a position -/

theorem Len.zero_le (n : Len) : 0 ≤ n := by simp [BitVec.le_def]

theorem State.positioned_le {s : State} (h : s.positioned = true) : s.idx ≤ s.lLen := by
  simp only [State.positioned, Bool.and_eq_true, decide_eq_true_eq] at h
  exact h.1

theorem State.positioned_of_idle {s : State} (hp : s.phase = .idle) (hle : s.idx ≤ s.lLen) :
    s.positioned = true := by
  simpa [State.positioned, hp] using hle

/-- A busy block has no error yet (R29, R45). -/
theorem State.positioned_noError {s : State} (h : s.positioned = true) (hp : s.phase ≠ .idle) :
    s.rErr = .noError := by
  cases hph : s.phase <;> simp_all [State.positioned]

/-- What a position in an open frame asks for, clause by clause. -/
theorem Descriptor.positionFits_iff {d : Descriptor} {s : State} (hf : s.frameActive = true) :
    d.positionFits s = true ↔
      (d.wop.isSome = true ∧ d.lengthFits s.lLen = true ∧ d.addrFits s.faddr = true) ∧
      (s.phase ≠ .data → s.idx = 0) ∧ (s.phase = .ahi ∨ s.phase = .amid ∨ s.phase = .alo → d.akind ≠ .noAddr) ∧
      (s.phase = .data → s.idx < s.lLen) := by
  cases hp : s.phase <;> simp_all [Descriptor.positionFits, State.frameActive, Phase.inFrame, and_assoc]

theorem State.positioned_of_fits {s : State} {d : Descriptor} (hd : descriptor s.lOp = some d)
    (hf : s.frameActive = true) (he : s.rErr = .noError) (hfits : d.positionFits s = true) :
    s.positioned = true := by
  obtain ⟨-, hidx, -, hdata⟩ := (Descriptor.positionFits_iff hf).mp hfits
  have hle : s.idx ≤ s.lLen := by
    by_cases hp : s.phase = .data
    · exact BitVec.le_of_lt (hdata hp)
    · rw [hidx hp]; exact Len.zero_le _
  cases hp : s.phase <;> simp_all [State.positioned, State.frameActive, Phase.inFrame]

/-- `positioned` looks at six registers only. -/
theorem State.positioned_congr {s t : State} (hp : t.phase = s.phase) (hi : t.idx = s.idx) (hl : t.lLen = s.lLen)
    (ho : t.lOp = s.lOp) (ha : t.faddr = s.faddr) (he : t.rErr = s.rErr) (h : s.positioned = true) :
    t.positioned = true := by
  simpa only [State.positioned, Descriptor.positionFits, hp, hi, hl, ho, ha, he] using h

/-! ### The issue -/

theorem Descriptor.lengthFits_length (d : Descriptor) (n : Len) : d.lengthFits (d.length n) = true := by
  cases h : d.nlen <;> simp [Descriptor.lengthFits, Descriptor.length, h]

/-- The encoder gives only addresses of its kind (R111 to R113). -/
theorem Descriptor.addrFits_encodeAddr (d : Descriptor) (a : HostAddr) :
    d.addrFits (encodeAddr d.akind a) = true := by
  unfold Descriptor.addrFits encodeAddr
  cases d.akind <;> simp only [decide_true, decide_eq_true_eq]
  ext i hi
  grind

theorem State.issued_positioned {d : Descriptor} {op : OpCode} {w : Byte} (hd : descriptor op = some d)
    (hw : d.wop = some w) (s : State) (p : Payload) :
    (s.issued op (encodeAddr d.akind p.addr) (d.length p.len) p.data).positioned = true :=
  State.positioned_of_fits hd rfl rfl <| (Descriptor.positionFits_iff rfl).mpr
    ⟨⟨by simp [hw], d.lengthFits_length p.len, d.addrFits_encodeAddr p.addr⟩, fun _ => rfl,
      by simp [State.issued], by simp [State.issued]⟩

/-! ### The next step of the command in progress -/

theorem State.transportInit_positioned {s u : State} (h : s.transportInit = some u) (hs : s.positioned = true) :
    (State.complete { u with phase := .idle }).positioned = true := by
  have hle := State.positioned_le hs
  refine State.positioned_of_idle rfl ?_
  rw [(State.transportInit_spec h).1]
  exact hle

/-- A data step does not count past L_LEN. -/
theorem Descriptor.taken_idx_le {d : Descriptor} {inp : Byte} {u : State} (hle : u.idx ≤ u.lLen)
    (hlt : u.phase = .data → u.idx < u.lLen) : (d.taken inp u).idx ≤ (d.taken inp u).lLen := by
  rw [d.taken_idx, d.taken_lLen]
  split
  · rename_i hp
    have h := hlt hp
    have hnat := BitVec.lt_def.mp h
    exact BitVec.le_def.mpr (by rw [Len.toNat_add_one h]; omega)
  · exact hle

/-- The frame goes on at a position its row allows (R145 to R148). -/
theorem Descriptor.nextPhase_fits {d : Descriptor} {v : State} {q : Phase}
    (hops : d.wop.isSome = true ∧ d.lengthFits v.lLen = true ∧ d.addrFits v.faddr = true)
    (hidx : v.phase ≠ .data → v.idx = 0)
    (haddr : v.phase = .ahi ∨ v.phase = .amid ∨ v.phase = .alo → d.akind ≠ .noAddr) (hle : v.idx ≤ v.lLen)
    (hq : d.nextPhase v = some q) : d.positionFits { v with phase := q } = true := by
  have hlt (hne : v.idx ≠ v.lLen) : v.idx < v.lLen := BitVec.lt_of_le_ne hle hne
  refine (Descriptor.positionFits_iff (Descriptor.nextPhase_inFrame hq)).mpr ⟨hops, ?_⟩
  unfold Descriptor.nextPhase at hq
  cases hp : v.phase <;> simp only [hp] at hq hidx haddr
  case idle | tinit => cases hq
  case opc =>
    have h0 := hidx nofun
    split_ifs at hq with hk hl
    · cases hq; exact ⟨fun _ => h0, fun _ => hk, nofun⟩
    · cases hq; exact ⟨nofun, by simp, fun _ => hlt (h0.trans_ne (Ne.symm hl))⟩
  case ahi | amid =>
    cases hq
    exact ⟨fun _ => hidx nofun, fun _ => haddr (by simp), nofun⟩
  case alo =>
    have h0 := hidx nofun
    split_ifs at hq with hl
    cases hq
    exact ⟨nofun, by simp, fun _ => hlt (h0.trans_ne (Ne.symm hl))⟩
  case data =>
    split_ifs at hq with hl
    cases hq
    exact ⟨nofun, by simp, fun _ => hlt hl⟩

theorem Descriptor.Advances.keeps_positioned {d : Descriptor} {s t : State} (hd : descriptor s.lOp = some d)
    (hs : s.positioned = true) (h : d.Advances s t) : t.positioned = true := by
  have hle := State.positioned_le hs
  have hlt {out : Byte} (hout : s.tOut = some out) : s.phase = .data → s.idx < s.lLen :=
    Descriptor.positionFits_data (State.positioned_fits hs (State.frameActive_of_tOut hout) hd)
  cases h with
  | waits => exact hs
  | inits u hp hu => exact State.transportInit_positioned hu hs
  | fails out inp u hout hx =>
    exact State.positioned_of_idle (by simp) (by simpa [hx.idx, hx.lLen] using hle)
  | ends out inp u hout hx hq =>
    refine State.positioned_of_idle rfl (Descriptor.taken_idx_le (u := u) ?_ ?_)
    · rwa [hx.idx, hx.lLen]
    · rw [hx.phase, hx.idx, hx.lLen]; exact hlt hout
  | goesOn out inp u q hout hx hq =>
    have hf := State.frameActive_of_tOut hout
    obtain ⟨hops, hidx, haddr, -⟩ := (Descriptor.positionFits_iff hf).mp (State.positioned_fits hs hf hd)
    have hv : (d.taken inp u).phase = s.phase := (d.taken_phase inp u).trans hx.phase
    refine State.positioned_of_fits (d := d) (by simpa [hx.lOp] using hd) (Descriptor.nextPhase_inFrame hq) ?_
      (Descriptor.nextPhase_fits ?_ ?_ ?_ ?_ hq)
    · simpa [hx.rErr] using State.positioned_noError hs (State.busy_of_frameActive hf)
    · simpa [hx.lLen, hx.faddr] using hops
    · intro hne
      rw [hv] at hne
      simpa [hx.phase, hne, hx.idx] using hidx hne
    · rwa [hv]
    · refine Descriptor.taken_idx_le ?_ ?_
      · rwa [hx.idx, hx.lLen]
      · rw [hx.phase, hx.idx, hx.lLen]; exact hlt hout

/-! ### Steps and runs -/

theorem State.Moves.keeps_positioned {s t : State} (hs : s.positioned = true) (h : s.Moves t) :
    t.positioned = true := by
  cases h with
  | waits => exact hs
  | lets f fs hp =>
    rw [State.foreignFrame_rest (State.frameActive_of_idle hp)]
    exact State.positioned_congr rfl rfl rfl rfl rfl rfl hs
  | refuses c cs e hp => exact State.positioned_of_idle hp (Len.zero_le _)
  | issues c cs d w _ _ _ hd hw => exact State.issued_positioned hd hw s c.payload
  | issuesInit c => rfl
  | advances d _ _ hd ht => exact ht.keeps_positioned hd hs

/-- Another agent's event leaves the block's registers alone, or is a reset. -/
theorem environment_keeps_positioned (e : Event) {s : State} (hs : s.positioned = true) :
    (environment e s).positioned = true := by
  cases e with
  | reset => exact State.positioned_of_idle s.resetBlock_phase (by simp [environment])
  | turn | hostOffer | hostStore | hostRegWrite | busRequest | writeCycleDone =>
    exact State.positioned_congr rfl rfl rfl rfl rfl rfl hs

/-- Settles O28, by what the block's turn and the other agents' events can do. -/
theorem stepKeepsPositioned : Obligations.StepKeepsPositioned := by
  intro s t hs hstep
  obtain ⟨es, hm | ⟨e, -, rfl⟩⟩ := step_next_cases hstep
  · exact (State.moves_of_move hm).keeps_positioned (s := { s with agenda := es })
      (State.positioned_congr rfl rfl rfl rfl rfl rfl hs)
  · exact environment_keeps_positioned e (State.positioned_congr rfl rfl rfl rfl rfl rfl hs)

/-- What every step keeps holds along a run. -/
theorem run_induction {P : State → Prop} (keeps : ∀ s t, P s → step s = .next t → P t) {n : Nat} {s t : State}
    (hs : P s) (h : core.run n s = .next t) : P t := by
  induction n generalizing s with
  | zero => cases h; exact hs
  | succ n ih =>
    simp only [Host.Core.run] at h
    split at h
    · rename_i u hstep
      exact ih (keeps s u hs hstep) h
    · cases h
    · cases h

/-- R45 follows from the position. -/
theorem State.inR45_of_positioned {s : State} (hs : s.positioned = true) : s.inR45 := by
  have hrow (hf : s.frameActive = true) : ∃ d, descriptor s.lOp = some d ∧ d.positionFits s = true := by
    obtain ⟨d, hd⟩ := State.positioned_row hs (State.busy_of_frameActive hf)
    exact ⟨d, hd, State.positioned_fits hs hf hd⟩
  refine ⟨State.positioned_le hs, fun hp => ?_, fun hp => ?_, fun hp => ?_, State.positioned_noError hs⟩
  · obtain ⟨d, -, hfits⟩ := hrow (by simp [State.frameActive, hp, Phase.inFrame])
    have hlt := Descriptor.positionFits_data hfits hp
    have hnat := BitVec.lt_def.mp hlt
    exact ⟨hlt, BitVec.le_def.mpr (by rw [show (1 : Len).toNat = 1 from rfl]; omega)⟩
  · obtain ⟨d, hd, hfits⟩ := hrow (by rcases hp with hp | hp | hp <;> simp [State.frameActive, hp, Phase.inFrame])
    exact ⟨d, hd, Descriptor.positionFits_addr hfits hp⟩
  · simp only [State.positioned, hp, Bool.and_eq_true, decide_eq_true_eq] at hs
    exact hs.2.1.1

/-- Settles O30: the start is positioned, so the end of the run is, and R45 follows. -/
theorem reachableStatesMeetR45 : Obligations.ReachableStatesMeetR45 := by
  intro s t n hp hi hrun
  have hs : s.positioned = true := State.positioned_of_idle hp (hi ▸ Len.zero_le _)
  exact State.inR45_of_positioned (run_induction stepKeepsPositioned hs hrun)

end Sys2Proof.Machine
end

section
/-! PROOFS. The wire trace is a sequence of whole frames and TInit events (R40, R74). -/

namespace Sys2Proof.Machine

@[simp] theorem openAfter_tInit : openAfter (some false) .tInit = some false := rfl
@[simp] theorem openAfter_frameBegin : openAfter (some false) .frameBegin = some true := rfl
@[simp] theorem openAfter_xchg (out inp : Byte) (fail : Bool) :
    openAfter (some true) (.xchg out inp fail) = some true := rfl
@[simp] theorem openAfter_frameEnd : openAfter (some true) .frameEnd = some false := rfl

@[simp] theorem framing_append (t : List WireEvent) (e : WireEvent) :
    framing (t ++ [e]) = openAfter (framing t) e := by
  simp [framing]

/-- A FrameEnd where a frame is open, and nothing where none is, leaves no frame open. -/
theorem framing_closed {t : List WireEvent} {b : Bool} (h : framing t = some b) :
    framing (if b then t ++ [.frameEnd] else t) = some false := by
  cases b <;> simp [h]

/-- An exchange leaves the frame open. -/
theorem State.ExchangesTo.framing_open {s u : State} {out inp : Byte} {fail : Bool} (hx : s.ExchangesTo out inp fail u)
    (hout : s.tOut = some out) (hs : framing s.trace = some s.frameActive) :
    framing u.trace = some true := by
  rw [hx.trace, framing_append, hs, State.frameActive_of_tOut hout, openAfter_xchg]

theorem Descriptor.Advances.keeps_framing {d : Descriptor} {s t : State}
    (hs : framing s.trace = some s.frameActive) (h : d.Advances s t) :
    framing t.trace = some t.frameActive := by
  cases h with
  | waits => exact hs
  | inits u hp hu =>
    have hf : s.frameActive = false := by simp [State.frameActive, hp, Phase.inFrame]
    rw [(State.transportInit_spec hu).1]
    change framing (s.trace ++ [.tInit]) = some false
    rw [framing_append, hs, hf, openAfter_tInit]
  | fails out inp u hout hx =>
    have hf : u.frameActive = true := hx.frameActive.trans (State.frameActive_of_tOut hout)
    simp [hf, hx.framing_open hout hs]
  | ends out inp u hout hx =>
    simp [hx.framing_open hout hs]
  | goesOn out inp u q hout hx hq =>
    have hq : q.inFrame = true := Descriptor.nextPhase_inFrame hq
    simpa [State.frameActive, hq] using hx.framing_open hout hs

theorem State.Moves.keeps_framing {s t : State} (hs : framing s.trace = some s.frameActive) (h : s.Moves t) :
    framing t.trace = some t.frameActive := by
  cases h with
  | waits => exact hs
  | lets f fs hp =>
    rw [State.foreignFrame_rest (State.frameActive_of_idle hp)]
    exact hs
  | refuses => exact hs
  | issues c cs d w hp =>
    rw [State.frameActive_of_idle hp] at hs
    simp [State.issued, hs, State.frameActive, Phase.inFrame]
  | issuesInit c cs hp =>
    rw [State.frameActive_of_idle hp] at hs
    exact hs
  | advances d _ _ _ ht => exact ht.keeps_framing hs

/-- Another agent's event adds nothing to the wire trace, or is a reset, which ends an open frame. -/
theorem environment_keeps_framing (e : Event) {s : State} (hs : framing s.trace = some s.frameActive) :
    framing (environment e s).trace = some (environment e s).frameActive := by
  cases e with
  | reset =>
    have hf : (environment .reset s).frameActive = false := State.frameActive_of_idle s.resetBlock_phase
    rw [hf]
    simpa [environment] using framing_closed hs
  | turn | hostOffer | hostStore | hostRegWrite | busRequest | writeCycleDone => exact hs

/-- Settles O33: every step's events follow the state of the frame. -/
theorem traceIsWholeFrames : Obligations.TraceIsWholeFrames := by
  intro s t hs hstep
  obtain ⟨es, hm | ⟨e, -, rfl⟩⟩ := step_next_cases hstep
  · exact (State.moves_of_move hm).keeps_framing (s := { s with agenda := es }) hs
  · exact environment_keeps_framing e hs

end Sys2Proof.Machine
end

section
/-! PROOFS. One response event per completion, and none otherwise (R36, R150, R273). -/

namespace Sys2Proof.Machine

/-- The response event that reports the result latches as they stand in `t` (R150). -/
def State.report (t : State) : Response := ⟨t.idx, t.rData, t.rFlag, t.rErr⟩

/-- What the block's turn from `s` to `t` adds to the response port, case by case. -/
structure State.Responds (s t : State) : Prop where
  inProgress : t.phase ≠ .idle → t.responses = s.responses
  completes : s.phase ≠ .idle → t.phase = .idle → t.responses = s.responses ++ [t.report]
  refused : s.phase = .idle → s.bus = [] → s.cmd ≠ [] → t.phase = .idle →
    t.rErr ≠ .noError ∧ t.responses = s.responses ++ [⟨0, 0, false, t.rErr⟩]
  waits : s.phase = .idle → (s.bus ≠ [] ∨ s.cmd = []) → t.responses = s.responses

/-- A step of the command in progress completes it with one response, or leaves it in progress with none. -/
theorem Descriptor.Advances.response {d : Descriptor} {s t : State} (hp : s.phase ≠ .idle) (h : d.Advances s t) :
    (t.phase ≠ .idle ∧ t.responses = s.responses) ∨
    (t.phase = .idle ∧ t.responses = s.responses ++ [t.report]) := by
  cases h with
  | waits => exact Or.inl ⟨hp, rfl⟩
  | inits u _ hu =>
    refine Or.inr ⟨rfl, ?_⟩
    rw [(State.transportInit_spec hu).1]
    rfl
  | fails out inp u _ hx => exact Or.inr ⟨by simp, by simp [State.report, hx.responses]⟩
  | ends out inp u _ hx => exact Or.inr ⟨rfl, by simp [State.report, hx.responses]⟩
  | goesOn out inp u q _ hx hq =>
    exact Or.inl ⟨State.busy_of_frameActive (Descriptor.nextPhase_inFrame hq), by simp [hx.responses]⟩

theorem State.Moves.responds {s t : State} (h : s.Moves t) : s.Responds t := by
  cases h with
  | waits hp hb hc => exact ⟨fun _ => rfl, fun h => absurd hp h, fun _ _ h => absurd hc h, fun _ _ => rfl⟩
  | lets f fs hp hb =>
    rw [State.foreignFrame_rest (State.frameActive_of_idle hp)]
    exact ⟨fun _ => rfl, fun h => absurd hp h, fun _ h => by simp [hb] at h, fun _ _ => rfl⟩
  | refuses c cs e hp hb hc he =>
    exact ⟨fun h => absurd hp h, fun h => absurd hp h, fun _ _ _ _ => ⟨he, rfl⟩,
      fun _ h => by simp [hb, hc] at h⟩
  | issues c cs d w hp hb hc =>
    exact ⟨fun _ => rfl, fun h => absurd hp h, fun _ _ _ h => (nomatch h), fun _ _ => rfl⟩
  | issuesInit c cs hp hb hc =>
    exact ⟨fun _ => rfl, fun h => absurd hp h, fun _ _ _ h => (nomatch h), fun _ _ => rfl⟩
  | advances d _ hp _ ht =>
    rcases ht.response hp with ⟨hbusy, hr⟩ | ⟨hidle, hr⟩
    · exact ⟨fun _ => hr, fun _ h => absurd h hbusy, fun h => absurd h hp, fun h => absurd h hp⟩
    · exact ⟨fun h => absurd hidle h, fun _ _ => hr, fun h => absurd h hp, fun h => absurd h hp⟩

@[simp] theorem environment_responses (e : Event) (s : State) : (environment e s).responses = s.responses := by
  cases e with
  | reset => exact s.resetBlock_responses
  | turn | hostOffer | hostStore | hostRegWrite | busRequest | writeCycleDone => rfl

/-- With no event of another agent before it, a step is the block's turn. -/
theorem State.moves_of_step {s t : State} (hb : s.blockMoves = true) (h : step s = .next t) :
    ∃ es, ({ s with agenda := es } : State).Moves t := by
  rcases step_cases s with ⟨ha, hm⟩ | ⟨es, -, hm⟩ | ⟨e, es, ha, he, -⟩
  · exact ⟨s.agenda, State.moves_of_move (hm ▸ h)⟩
  · exact ⟨es, State.moves_of_move (hm ▸ h)⟩
  · simp [State.blockMoves, ha, he] at hb

/-- With an event of another agent before it, a step is that event. -/
theorem environment_of_step {s t : State} (hb : s.blockMoves = false) (h : step s = .next t) :
    ∃ e es, t = environment e { s with agenda := es } := by
  rcases step_cases s with ⟨ha, -⟩ | ⟨es, ha, -⟩ | ⟨e, es, -, -, hm⟩
  · simp [State.blockMoves, ha] at hb
  · simp [State.blockMoves, ha] at hb
  · rw [h] at hm
    cases hm
    exact ⟨e, es, rfl⟩

/-- Settles O38: the block's turn responds as its case says, and no other agent's event responds. -/
theorem oneResponsePerCompletion : Obligations.OneResponsePerCompletion := by
  intro s t hstep
  have turn (hb : s.blockMoves = true) : s.Responds t := by
    obtain ⟨es, hm⟩ := State.moves_of_step hb hstep
    obtain ⟨hinProgress, hcompletes, hrefused, hwaits⟩ := hm.responds
    exact ⟨hinProgress, hcompletes, hrefused, hwaits⟩
  have event (hb : s.blockMoves = false) : t.responses = s.responses := by
    obtain ⟨e, es, rfl⟩ := environment_of_step hb hstep
    simp
  refine ⟨fun hp => ?_, event, fun hb => (turn hb).completes, fun hb => (turn hb).refused,
    fun hb => (turn hb).waits⟩
  cases hb : s.blockMoves with
  | true => exact (turn hb).inProgress hp
  | false => exact event hb

end Sys2Proof.Machine
end

section
/-! PROOFS. The chip behind the transport, whoever moves it: what a step can do to it (R82, R85 to R91), and that the
lock latch is one-way (R43, R89). -/

namespace Sys2Proof.Machine

/-- LOCKED changes only by an accepted LOCK_ID frame, which sets it (R89). -/
theorem Chip.effect_locked (c : Chip) (rx : List Byte) :
    (c.effect rx).locked = c.locked ∨
    ∃ hi mid lo d, rx = [0x82, hi, mid, lo, d] ∧ bitA10 (addrOfBytes hi mid lo) = true ∧
      (c.effect rx).locked = true := by
  unfold Chip.effect
  split
  · exact Or.inl rfl
  cases rx with
  | nil => exact Or.inl rfl
  | cons op rest =>
    dsimp only
    split
    case h_1 | h_2 => split <;> exact Or.inl rfl
    case h_3 =>
      split
      · unfold Chip.effectWrsr; split <;> exact Or.inl rfl
      · exact Or.inl rfl
    case h_4 =>
      split
      · unfold Chip.effectWrite; split <;> exact Or.inl rfl
      · exact Or.inl rfl
    case h_5 hop =>
      split
      · rename_i hi mid lo ds
        split
        · rename_i ha10
          unfold Chip.effectLockId
          split
          · rename_i d
            split
            · refine Or.inr ⟨hi, mid, lo, d, ?_, ha10, rfl⟩
              rw [show op = 0x82 from BitVec.eq_of_toNat_eq hop]
            · exact Or.inl rfl
          · exact Or.inl rfl
        · unfold Chip.effectWriteId; split <;> exact Or.inl rfl
      · exact Or.inl rfl
    case h_6 => exact Or.inl rfl

theorem Chip.effect_keeps_lock {c : Chip} (h : c.locked = true) (rx : List Byte) :
    (c.effect rx).locked = true := by
  rcases c.effect_locked rx with he | ⟨hi, mid, lo, d, -, -, he⟩
  · exact he.trans h
  · exact he

theorem Chip.frameEnd_keeps_lock {c : Chip} (h : c.locked = true) : c.frameEnd.locked = true := by
  rcases c.frameEnd_spec with ⟨-, he⟩ | ⟨rx, -, he⟩ <;> rw [he]
  · exact h
  · exact Chip.effect_keeps_lock h rx

@[simp] theorem Chip.writeCycleDone_locked (c : Chip) : c.writeCycleDone.locked = c.locked := by
  unfold Chip.writeCycleDone; split <;> rfl

/-- Everything one step does to the chip is made of these (R82, R91, R271). -/
inductive Chip.Reaches : Chip → Chip → Prop
  | refl (c : Chip) : c.Reaches c
  | openFrame {c c' : Chip} (h : c.Reaches c') : c.Reaches c'.openFrame
  | receive {c c' : Chip} (b : Byte) (h : c.Reaches c') : c.Reaches (c'.receive b)
  | frameEnd {c c' : Chip} (h : c.Reaches c') : c.Reaches c'.frameEnd
  | dropFrame {c c' : Chip} (h : c.Reaches c') : c.Reaches c'.dropFrame
  | writeCycleDone {c c' : Chip} (h : c.Reaches c') : c.Reaches c'.writeCycleDone

theorem Chip.Reaches.keeps_lock {c c' : Chip} (h : c.Reaches c') (hl : c.locked = true) : c'.locked = true := by
  induction h with
  | refl => exact hl
  | openFrame _ ih | receive _ _ ih | dropFrame _ ih => exact ih
  | frameEnd _ ih => exact Chip.frameEnd_keeps_lock ih
  | writeCycleDone _ ih => simpa using ih

/-! ### What a step does to the chip -/

theorem State.ExchangesTo.chip_reaches {s u : State} {out inp : Byte} {fail : Bool}
    (hx : s.ExchangesTo out inp fail u) : s.chip.Reaches u.chip := by
  rcases hx.chip with h | h <;> rw [h]
  · exact .refl _
  · exact .receive out (.refl _)

theorem Descriptor.Advances.chip_reaches {d : Descriptor} {s t : State} (h : d.Advances s t) :
    s.chip.Reaches t.chip := by
  cases h with
  | waits => exact .refl _
  | inits u _ hu =>
    rw [(State.transportInit_spec hu).1]
    exact .refl _
  | fails out inp u _ hx =>
    rw [State.raise_chip]
    split
    · exact .frameEnd hx.chip_reaches
    · exact hx.chip_reaches
  | ends out inp u _ hx =>
    rw [State.finish_chip, d.taken_chip]
    split
    · exact .frameEnd hx.chip_reaches
    · exact hx.chip_reaches
  | goesOn out inp u q _ hx => simpa using hx.chip_reaches

theorem State.foreignBytes_reaches {c : Chip} {s : State} (h : c.Reaches s.chip) (bytes : List Byte) :
    c.Reaches (s.foreignBytes bytes).chip := by
  induction bytes generalizing s with
  | nil => exact h
  | cons b bs ih => exact ih (s := s.foreignByte b) (.receive b h)

theorem State.foreignFrame_reaches (s : State) (bytes : List Byte) :
    s.chip.Reaches (s.foreignFrame bytes).chip := by
  unfold State.foreignFrame
  split
  · exact .refl _
  · exact .frameEnd (State.foreignBytes_reaches (.openFrame (.refl _)) bytes)

theorem State.Moves.chip_reaches {s t : State} (h : s.Moves t) : s.chip.Reaches t.chip := by
  cases h with
  | waits | refuses | issuesInit => exact .refl _
  | lets f => exact s.foreignFrame_reaches f
  | issues =>
    dsimp only [State.issued]
    split
    · exact .openFrame (.refl _)
    · exact .refl _
  | advances d _ _ _ ht => exact ht.chip_reaches

theorem environment_chip_reaches (e : Event) (s : State) : s.chip.Reaches (environment e s).chip := by
  cases e with
  | reset =>
    dsimp only [environment]
    rw [State.resetBlock_chip]
    split_ifs
    · exact .frameEnd (.refl _)
    · exact .dropFrame (.refl _)
    · exact .refl _
  | writeCycleDone => exact .writeCycleDone (.refl _)
  | turn | hostOffer | hostStore | hostRegWrite | busRequest => exact .refl _

/-- Whoever moves in a step, the chip sees nothing but frames, bytes and the end of a write cycle. -/
theorem step_chip_reaches {s t : State} (h : step s = .next t) : s.chip.Reaches t.chip := by
  obtain ⟨es, hm | ⟨e, -, rfl⟩⟩ := step_next_cases h
  · exact (State.moves_of_move hm).chip_reaches
  · exact environment_chip_reaches e { s with agenda := es }

/-- Settles O40: nothing that happens to the chip in a step clears LOCKED. -/
theorem lockIsIrreversible : Obligations.LockIsIrreversible :=
  fun _ _ hl hstep => (step_chip_reaches hstep).keeps_lock hl

end Sys2Proof.Machine
end

section
/-! PROOFS. What the machine runs next (R33, R35, R140), and that an accepted issue forgets what earlier commands left
(R20, R142). -/

namespace Sys2Proof.Machine

/-! ### Fetch -/

/-- The block's turn runs the command offered to an idle block. -/
theorem move_offered {s : State} {c : Command} {cs : List Command} {i : Instr} (hp : s.phase = .idle)
    (hb : s.bus = []) (hc : s.cmd = c :: cs) (hi : decodeCommand c = .ok i) : move s = exec i s := by
  simp [move, State.fetch, hp, hb, hc, hi]

/-- The block's turn runs the command in progress, read back from the latches. -/
theorem move_latched {s : State} {i : Instr} (hp : s.phase ≠ .idle) (hi : decodeCommand s.latched = .ok i) :
    move s = exec i s := by
  have hf : s.fetch = .instr i := by
    unfold State.fetch
    cases h : s.phase <;> simp_all
  simp [move, hf]

/-- An instruction put where the machine looks is the next one it runs. -/
theorem step_offer {e : Encoded} {i : Instr} (s : State) (h : decode e = .ok i) :
    step (s.offer e) = exec i (s.offer e) := by
  cases e with
  | command w => exact (step_turn rfl).trans (move_offered rfl rfl rfl h)
  | frame bytes => exact (step_turn rfl).trans (move_idle_frame rfl rfl h)

theorem decode_of_decodeTableWord {nbits w : Nat} {i : Instr} (h : decodeTableWord nbits w = some i) :
    decode (ofTableWord nbits w) = .ok i := by
  unfold decodeTableWord at h
  split at h
  · rename_i hd; cases h; exact hd
  · cases h

/-- Settles O5, place by place. -/
theorem stepRunsTheDecodedInstruction : Obligations.StepRunsTheDecodedInstruction := by
  refine ⟨?_, ?_, ?_, ?_, ?_, ?_⟩
  · intro s c cs i ha hp hb hc hi
    rw [step_turn ha, move_offered hp hb hc hi]
  · intro s f fs i ha hp hb hi
    rw [step_turn ha, move_idle_frame hp hb hi]
  · intro s i ha hp hi
    rw [step_turn ha, move_latched hp hi]
  · intro s ha hp hb hc
    rw [step_turn ha, move_idle_nothing hp hb hc]
  · intro s es ha
    simp [step, ha]
  · intro s nbits w i hi
    exact step_offer s (decode_of_decodeTableWord hi)

/-! ### The issue -/

/-- The state with the registers beside PHASE replaced, as other earlier commands might have left them. -/
def State.withRegisters (s : State) (idx lLen : Len) (lOp : OpCode) (faddr : FrameAddr) (lData rData : Byte)
    (rFlag : Bool) (rErr : ErrorCode) : State :=
  { s with
    idx := idx
    lLen := lLen
    lOp := lOp
    faddr := faddr
    lData := lData
    rData := rData
    rFlag := rFlag
    rErr := rErr }

/-- Every register the accepting half of an issue does not set from the operands, the other half has cleared. -/
theorem Descriptor.accept_withRegisters (d : Descriptor) (p : Payload) (op : OpCode) (s : State) (idx lLen : Len)
    (lOp : OpCode) (faddr : FrameAddr) (lData rData : Byte) (rFlag : Bool) (rErr : ErrorCode) :
    d.accept p ((s.withRegisters idx lLen lOp faddr lData rData rFlag rErr).beginIssue op) =
      d.accept p (s.beginIssue op) := by
  unfold Descriptor.accept
  cases d.wop <;> rfl

theorem Descriptor.issue_accepted {d : Descriptor} {p : Payload} {s : State}
    (h : d.issueError s.cfg.checkEn p = none) : d.issue p s = d.accept p (s.beginIssue d.op) := by
  rw [Descriptor.issue, h]

/-- Settles O14: an issue that leaves the block busy was accepted, and an acceptance overwrites every register. -/
theorem issueForgetsEarlierCommands : Obligations.IssueForgetsEarlierCommands := by
  intro s t c i idx lLen lOp faddr lData rData rFlag rErr hp hi hexec hbusy
  rcases decodeCommand_row c with ⟨j, d, hj, -, hrow⟩ | ⟨he, -⟩
  · obtain rfl : j = i := Except.ok.inj (hj.symm.trans hi)
    have issue (u : State) (hu : u.phase = .idle) : exec j u = .next (d.issue c.payload u) := by
      rw [hrow, Descriptor.execute, if_pos hu]
    rw [issue s hp] at hexec
    cases hexec
    refine (issue (s.withRegisters idx lLen lOp faddr lData rData rFlag rErr) hp).trans (congrArg _ ?_)
    rcases d.issue_cases c.payload s with ⟨e, -, h⟩ | ⟨hnone, h⟩
    · simp [h] at hbusy
    · rw [h, ← d.accept_withRegisters c.payload d.op s idx lLen lOp faddr lData rData rFlag rErr]
      exact Descriptor.issue_accepted hnone
  · simp [he] at hi

end Sys2Proof.Machine
end

section
/-! PROOFS. The registers as the host sees them, the state after reset, and a host's store to BUF (R30, R34, R44,
R78). -/

namespace Sys2Proof.Machine

/-! ### Derived signals and host registers -/

/-- Settles O46, phase by phase. -/
theorem derivedSignals : Obligations.DerivedSignals := by
  intro s
  refine ⟨by simp [State.busy], by simp [State.cmdReady], ?_, by simp [State.errf]⟩
  unfold State.frameActive
  cases s.phase <;> simp [Phase.inFrame]

/-- A bit appended below a field doubles the field's value. -/
theorem toNat_append_ofBool {n : Nat} (x : BitVec n) (b : Bool) :
    (x ++ BitVec.ofBool b).toNat = 2 * x.toNat + b.toNat := by
  rw [Nat.mul_comm]
  exact BitVec.toNat_concat x b

/-- STAT is the sum of its fields, each at its place (R34). -/
theorem State.stat_toNat (s : State) :
    s.stat.toNat = s.busy.toNat + 2 * s.errf.toNat + 4 * s.rFlag.toNat + 8 * s.frameActive.toNat +
      16 * s.phase.code.toNat := by
  rw [State.stat, BitVec.toNat_setWidth_of_le (by decide)]
  simp only [toNat_append_ofBool]
  omega

/-- Settles O47: no register is wider than 32 bits, so each reads as itself. -/
theorem hostRegisters : Obligations.HostRegisters := by
  constructor
  · intro s
    exact ⟨s.stat_toNat, BitVec.toNat_setWidth_of_le (by decide), BitVec.toNat_setWidth_of_le (by decide),
      BitVec.toNat_setWidth_of_le (by decide), BitVec.toNat_setWidth_of_le (by decide),
      BitVec.toNat_setWidth_of_le (by decide), BitVec.toNat_setWidth_of_le (by decide),
      BitVec.toNat_setWidth_of_le (by decide)⟩
  · intro s n v es ha
    simp [step, ha, environment, State.regWrite]

/-! ### Reset -/

/-- Settles O37: an idle block with every register 0, empty memories and an empty trace. -/
theorem resetMeetsTheInvariants : Obligations.ResetMeetsTheInvariants :=
  ⟨State.positioned_of_idle rfl (Len.zero_le _), rfl, rfl, State.headerSent_of_noFrame rfl, fun _ hf => nomatch hf⟩

/-- Settles O45. -/
theorem resetState : Obligations.ResetState := by
  refine ⟨rfl, rfl, rfl, rfl, rfl, rfl, rfl, rfl, rfl, rfl, rfl, rfl, rfl, rfl, rfl, by decide, fun s => ⟨?_, ?_⟩⟩
  · exact s.resetBlock_buf
  · intro hf
    simp [environment, hf]

/-! ### A host's store -/

/-- Settles O48, by the read-after-write law of a memory. -/
theorem hostStoreChangesOneByte : Obligations.HostStoreChangesOneByte := by
  intro s i v es hwf ha
  refine ⟨s.buf.write i.toNat v, ?_, fun a => Memory.read_write hwf i.toNat a v⟩
  simp [step, ha, environment]

end Sys2Proof.Machine
end

section
/-! PROOFS. The frame of a command: what its exec leaves unchanged (R27, R28, R32, R73, R87, R88, R143). -/

namespace Sys2Proof.Machine

/-! ### exec of a command -/

/-- A command instruction is its row of the descriptor table at work. -/
theorem exec_row {i : Instr} {d : Descriptor} (h : rowOf i = some d) :
    descriptor d.op = some d ∧ ∃ p, ∀ s, exec i s = d.execute p s := by
  cases i <;> cases h <;> exact ⟨rfl, _, fun _ => rfl⟩

/-- Everything exec of a command can do when it gives a next state (R141, R142, R144 to R151). -/
inductive Descriptor.Executes (d : Descriptor) (s : State) : State → Prop
  /-- The issue is refused. -/
  | refuses (e : ErrorCode) (hp : s.phase = .idle) : d.Executes s (s.refused d.op e)
  /-- The issue is accepted and opens the frame. -/
  | issues (p : Payload) (w : Byte) (hp : s.phase = .idle) (hw : d.wop = some w) :
      d.Executes s (s.issued d.op (encodeAddr d.akind p.addr) (d.length p.len) p.data)
  /-- INIT is accepted. -/
  | issuesInit (p : Payload) (hp : s.phase = .idle) : d.Executes s (s.issuedInit p)
  /-- The command in progress takes its next step. -/
  | advances (t : State) (hp : s.phase ≠ .idle) (hop : s.lOp = d.op) (ht : d.Advances s t) : d.Executes s t
  /-- Another command is in progress. -/
  | ignores (hp : s.phase ≠ .idle) (hop : s.lOp ≠ d.op) : d.Executes s s

theorem Descriptor.executes_of_exec {i : Instr} {d : Descriptor} {s t : State} (hi : rowOf i = some d)
    (h : exec i s = .next t) : d.Executes s t := by
  obtain ⟨hd, p, hexec⟩ := exec_row hi
  rw [hexec] at h
  rcases d.execute_cases p s with ⟨hp, he⟩ | ⟨hp, hop, he⟩ | ⟨hp, hop, he⟩ <;> rw [he] at h
  · cases h
    rcases Descriptor.issue_idle_cases hd p hp with ⟨e, -, hi⟩ | ⟨w, hw, hi⟩ | ⟨-, hi⟩ <;> rw [hi]
    · exact .refuses e hp
    · exact .issues p w hp hw
    · exact .issuesInit p hp
  · exact .advances t hp hop (Descriptor.advances_of_advance (hop ▸ hd) hp h)
  · cases h
    exact .ignores hp hop

/-! ### The other agents' side -/

/-- What a command never touches: the parameters, the other agents' inputs, the other masters' trace. -/
structure State.SameSurroundings (s t : State) : Prop where
  cfg : t.cfg = s.cfg
  agenda : t.agenda = s.agenda
  bus : t.bus = s.bus
  busTrace : t.busTrace = s.busTrace

theorem Descriptor.Advances.surroundings {d : Descriptor} {s t : State} (h : d.Advances s t) :
    s.SameSurroundings t := by
  cases h with
  | waits => exact ⟨rfl, rfl, rfl, rfl⟩
  | inits u _ hu =>
    rw [(State.transportInit_spec hu).1]
    exact ⟨rfl, rfl, rfl, rfl⟩
  | fails out inp u _ hx | ends out inp u _ hx | goesOn out inp u q _ hx =>
    constructor <;> simp [hx.cfg, hx.agenda, hx.bus, hx.busTrace]

theorem Descriptor.Executes.surroundings {d : Descriptor} {s t : State} (h : d.Executes s t) :
    s.SameSurroundings t := by
  cases h with
  | refuses | issues | issuesInit | ignores => exact ⟨rfl, rfl, rfl, rfl⟩
  | advances _ _ _ ht => exact ht.surroundings

/-! ### BUF -/

theorem Descriptor.storeIndex_congr (d : Descriptor) {s u : State} (h : u.idx = s.idx) :
    d.storeIndex u = d.storeIndex s := by
  simp only [Descriptor.storeIndex, h]

theorem Descriptor.Advances.buf_read {d : Descriptor} {s t : State} (h : d.Advances s t) {a : Nat}
    (ha : s.phase = .data → ∀ k, d.storeIndex s = some k → a ≠ k.toNat) : t.buf.read a = s.buf.read a := by
  have taken {out inp : Byte} {u : State} (hx : s.ExchangesTo out inp false u) :
      (d.taken inp u).buf.read a = s.buf.read a := by
    rw [← hx.buf]
    exact Descriptor.taken_buf_read inp u (by rwa [hx.phase, d.storeIndex_congr hx.idx])
  cases h with
  | waits => rfl
  | inits u _ hu => rw [(State.transportInit_spec hu).1]; rfl
  | fails out inp u _ hx => simp [hx.buf]
  | ends out inp u _ hx => exact taken hx
  | goesOn out inp u q _ hx => exact taken hx

theorem Descriptor.Executes.buf_read {d : Descriptor} {s t : State} (h : d.Executes s t) {a : Nat}
    (ha : s.phase = .data → s.lOp = d.op → ∀ k, d.storeIndex s = some k → a ≠ k.toNat) :
    t.buf.read a = s.buf.read a := by
  cases h with
  | refuses | issues | issuesInit | ignores => rfl
  | advances _ _ hop ht => exact ht.buf_read fun hp => ha hp hop

/-! ### The latches -/

/-- What the command in progress keeps: the operand latches and the offer, IDX outside DATA, R_ERR but for a failed
exchange, and the result latches its row does not write (R27, R28, R32, R143, R148). -/
structure Descriptor.KeepsLatches (d : Descriptor) (s t : State) : Prop where
  lOp : t.lOp = s.lOp
  faddr : t.faddr = s.faddr
  lLen : t.lLen = s.lLen
  lData : t.lData = s.lData
  cmd : t.cmd = s.cmd
  idx : s.phase ≠ .data → t.idx = s.idx
  rErr : t.rErr = s.rErr ∨ t.rErr = .transportFailure
  rData : d.latchesRData = false → t.rData = s.rData
  rFlag : d.latchesRFlag = false → t.rFlag = s.rFlag

theorem Descriptor.KeepsLatches.refl (d : Descriptor) (s : State) : d.KeepsLatches s s :=
  ⟨rfl, rfl, rfl, rfl, rfl, fun _ => rfl, Or.inl rfl, fun _ => rfl, fun _ => rfl⟩

theorem Descriptor.keepsLatches_taken (d : Descriptor) {s u : State} {out inp : Byte}
    (hx : s.ExchangesTo out inp false u) : d.KeepsLatches s (d.taken inp u) where
  lOp := by simp [hx.lOp]
  faddr := by simp [hx.faddr]
  lLen := by simp [hx.lLen]
  lData := by simp [hx.lData]
  cmd := by simp [hx.cmd]
  idx := fun hp => by simp [hx.phase, hp, hx.idx]
  rErr := Or.inl (by simp [hx.rErr])
  rData := fun h => (Descriptor.taken_rData inp u h).trans hx.rData
  rFlag := fun h => (Descriptor.taken_rFlag inp u h).trans hx.rFlag

theorem Descriptor.Advances.keepsLatches {d : Descriptor} {s t : State} (h : d.Advances s t) :
    d.KeepsLatches s t := by
  cases h with
  | waits => exact .refl d s
  | inits u _ hu =>
    rw [(State.transportInit_spec hu).1]
    exact ⟨rfl, rfl, rfl, rfl, rfl, fun _ => rfl, Or.inl rfl, fun _ => rfl, fun _ => rfl⟩
  | fails out inp u _ hx =>
    constructor <;> simp [hx.lOp, hx.faddr, hx.lLen, hx.lData, hx.cmd, hx.idx, hx.rData, hx.rFlag]
  | ends out inp u _ hx | goesOn out inp u q _ hx =>
    obtain ⟨hop, hfaddr, hlen, hdata, hcmd, hidx, herr, hrdata, hrflag⟩ := d.keepsLatches_taken hx
    exact ⟨hop, hfaddr, hlen, hdata, hcmd, hidx, herr, hrdata, hrflag⟩

theorem Descriptor.Executes.keepsLatches {d : Descriptor} {s t : State} (h : d.Executes s t)
    (hbusy : s.phase ≠ .idle) : d.KeepsLatches s t := by
  cases h with
  | refuses _ hp | issues _ _ hp | issuesInit _ hp => exact absurd hp hbusy
  | advances _ _ _ ht => exact ht.keepsLatches
  | ignores => exact .refl d s

/-! ### The chip -/

/-- The chip's arrays, status register and lock are as they were. -/
def Chip.SameContents (c c' : Chip) : Prop :=
  c'.mem = c.mem ∧ c'.idp = c.idp ∧ c'.sr = c.sr ∧ c'.locked = c.locked

theorem Chip.SameContents.refl (c : Chip) : c.SameContents c := ⟨rfl, rfl, rfl, rfl⟩

theorem State.issued_chip_contents (s : State) (op : OpCode) (a : FrameAddr) (n : Len) (b : Byte) :
    s.chip.SameContents (s.issued op a n b).chip := by
  unfold State.issued
  dsimp only
  split <;> exact .refl _

theorem State.ExchangesTo.chip_contents {s u : State} {out inp : Byte} {fail : Bool}
    (hx : s.ExchangesTo out inp fail u) : s.chip.SameContents u.chip := by
  rcases hx.chip with h | h <;> rw [h] <;> exact .refl _

/-- A transport that is not the responder leaves the chip and the draws alone. -/
theorem Descriptor.Advances.detached {d : Descriptor} {s t : State} (hl : s.link.attached = false)
    (h : d.Advances s t) : t.chip = s.chip ∧ t.draws = s.draws := by
  cases h with
  | waits => exact ⟨rfl, rfl⟩
  | inits u _ hu => rw [(State.transportInit_spec hu).1]; exact ⟨rfl, rfl⟩
  | fails out inp u _ hx | ends out inp u _ hx | goesOn out inp u q _ hx =>
    simp [hx.attached, hl, hx.detached hl]

theorem Descriptor.Executes.detached {d : Descriptor} {s t : State} (hl : s.link.attached = false)
    (h : d.Executes s t) : t.chip = s.chip ∧ t.draws = s.draws := by
  cases h with
  | refuses | issuesInit | ignores => exact ⟨rfl, rfl⟩
  | issues => simp [State.issued, hl]
  | advances _ _ _ ht => exact ht.detached hl

/-- A frame acts on the chip at its end only (R82). -/
theorem Descriptor.Executes.chip_contents_of_open {d : Descriptor} {s t : State} (h : d.Executes s t)
    (hf : t.frameActive = true) : s.chip.SameContents t.chip := by
  cases h with
  | refuses | issuesInit | ignores => exact .refl _
  | issues => exact s.issued_chip_contents ..
  | advances _ _ _ ht =>
    cases ht with
    | waits => exact .refl _
    | inits => nomatch hf
    | fails out inp u => simp at hf
    | ends => simp at hf
    | goesOn out inp u q _ hx => simpa using hx.chip_contents

/-! ### The commands that read -/

theorem descriptor_read_wop :
    ∀ op, ∀ d ∈ descriptor op, d.dir = .read → ∀ w ∈ d.wop, w = 0x03 ∨ w = 0x05 ∨ w = 0x83 := by decide

/-- An open frame has sent nothing in OPC, and its wire opcode first in every later phase (R104). -/
theorem State.headerSent_opcode {s : State} {d : Descriptor} {w : Byte} (hd : descriptor s.lOp = some d)
    (hw : d.wop = some w) (hf : s.frameActive = true) (hs : s.headerSent) :
    (s.phase = .opc ∧ lastFrameBytes s.trace = []) ∨ ∃ rest, lastFrameBytes s.trace = w :: rest := by
  by_cases hp : s.phase = .data
  · obtain ⟨⟨rest, hrest⟩, -⟩ := (State.headerSent_data hd hw hp).mp hs
    refine Or.inr ⟨d.header w s.faddr ++ rest |>.tail, ?_⟩
    rw [← hrest, Descriptor.header]
    split <;> rfl
  · have hsent := (State.headerSent_header hd hw hf hp).mp hs
    rw [hsent]
    cases h : s.phase <;> simp [State.frameActive, Phase.inFrame, Descriptor.headerUpTo, h] at hf hp ⊢

/-- The frame the chip has received after an exchange acts on nothing when it ends (R87, R88). -/
theorem State.ExchangesTo.frameEnd_contents {s u : State} {d : Descriptor} {out inp : Byte} {fail : Bool}
    (hx : s.ExchangesTo out inp fail u) (hout : s.tOut = some out) (hd : descriptor s.lOp = some d)
    (hdir : d.dir = .read) (hpos : s.positioned = true) (hs : s.headerSent)
    (hrx : s.chip.rx = some (lastFrameBytes s.trace)) : s.chip.SameContents u.chip.frameEnd := by
  have hf := State.frameActive_of_tOut hout
  obtain ⟨w, hw⟩ := Descriptor.positionFits_wop (State.positioned_fits hpos hf hd)
  have hread : w = 0x03 ∨ w = 0x05 ∨ w = 0x83 := descriptor_read_wop _ d hd hdir w hw
  have hbytes : ∃ bs, u.chip.rx = some bs ∧ (bs = [] ∨ ∃ rest, bs = w :: rest) := by
    rcases State.headerSent_opcode hd hw hf hs with ⟨hp, hnil⟩ | ⟨rest, hsent⟩
    · obtain rfl : w = out := Option.some.inj (by rw [← hw, ← State.tOut_opc hd hp, hout])
      rcases hx.chip with h | h <;> simp [h, hrx, hnil]
    · rcases hx.chip with h | h <;> simp [h, hrx, hsent]
  obtain ⟨bs, hbs, hcase⟩ := hbytes
  have heffect : u.chip.effect bs = u.chip := by
    rcases hcase with rfl | ⟨rest, rfl⟩
    · unfold Chip.effect; split <;> rfl
    · exact u.chip.effect_read rest hread
  have hend : u.chip.frameEnd = { u.chip with rx := none } := by
    rw [Chip.frameEnd, hbs]
    simp only [heffect]
  rw [hend]
  exact hx.chip_contents

theorem Descriptor.Executes.chip_contents_of_read {d : Descriptor} {s t : State} (hd : descriptor d.op = some d)
    (h : d.Executes s t) (hdir : d.dir = .read) (hpos : s.positioned = true) (hs : s.headerSent)
    (hfollows : s.chipFollows) : s.chip.SameContents t.chip := by
  cases h with
  | refuses | issuesInit | ignores => exact .refl _
  | issues => exact s.issued_chip_contents ..
  | advances _ _ hop ht =>
    have ended {out inp : Byte} {fail : Bool} {u : State} (hout : s.tOut = some out)
        (hx : s.ExchangesTo out inp fail u) (hl : u.link.attached = true) :
        s.chip.SameContents u.chip.frameEnd :=
      hx.frameEnd_contents hout (hop ▸ hd) hdir hpos hs
        (hfollows (hx.attached ▸ hl) (State.frameActive_of_tOut hout))
    cases ht with
    | waits => exact .refl _
    | inits u _ hu => rw [(State.transportInit_spec hu).1]; exact .refl _
    | fails out inp u hout hx =>
      rw [State.raise_chip]
      split
      · rename_i hl; exact ended hout hx hl.2
      · exact hx.chip_contents
    | ends out inp u hout hx =>
      rw [State.finish_chip, d.taken_chip, d.taken_link]
      split
      · rename_i hl; exact ended hout hx hl
      · exact hx.chip_contents
    | goesOn out inp u q _ hx => simpa using hx.chip_contents

/-- Settles O43, clause by clause. -/
theorem commandFrame : Obligations.CommandFrame := by
  intro i d s t hi hexec
  have hd := (exec_row hi).1
  have h := Descriptor.executes_of_exec hi hexec
  refine ⟨?_, fun a ha => h.buf_read ha, fun hbusy => ?_, fun hl => h.detached hl,
    fun hf => h.chip_contents_of_open hf,
    fun hdir hpos hs hfollows => h.chip_contents_of_read hd hdir hpos hs hfollows⟩
  · obtain ⟨hcfg, hagenda, hbus, hbusTrace⟩ := h.surroundings
    exact ⟨hcfg, hagenda, hbus, hbusTrace⟩
  · obtain ⟨hop, hfaddr, hlen, hdata, hcmd, hidx, herr, hrdata, hrflag⟩ := h.keepsLatches hbusy
    exact ⟨hop, hfaddr, hlen, hdata, hcmd, hidx, herr, hrdata, hrflag⟩

end Sys2Proof.Machine
end

section
/-! PROOFS. One step on the memories and the chip (R60, R62, R84, R88, R91): BUF gets one byte at most, and the chip ends
one frame at most. The invariants of the chip's arrays follow. -/

namespace Sys2Proof.Machine

/-! ### BUF -/

/-- BUF gets at most one byte from `m` to `m'`. -/
def Memory.GetsAtMostOne (m m' : Memory) : Prop := m' = m ∨ ∃ (i : Len) (v : Byte), m' = m.write i.toNat v

theorem Descriptor.taken_getsAtMostOne (d : Descriptor) (inp : Byte) (u : State) :
    u.buf.GetsAtMostOne (d.taken inp u).buf := by
  unfold Descriptor.taken
  split
  · cases hk : d.storeIndex u with
    | none => exact Or.inl (by simp [hk])
    | some k => exact Or.inr ⟨k, inp, by simp [hk]⟩
  · exact Or.inl rfl

theorem Descriptor.Advances.buf_getsAtMostOne {d : Descriptor} {s t : State} (h : d.Advances s t) :
    s.buf.GetsAtMostOne t.buf := by
  cases h with
  | waits => exact Or.inl rfl
  | inits u _ hu => rw [(State.transportInit_spec hu).1]; exact Or.inl rfl
  | fails out inp u _ hx => exact Or.inl (by simp [hx.buf])
  | ends out inp u _ hx | goesOn out inp u q _ hx =>
    rw [← hx.buf]
    exact d.taken_getsAtMostOne inp u

theorem State.Moves.buf_getsAtMostOne {s t : State} (h : s.Moves t) : s.buf.GetsAtMostOne t.buf := by
  cases h with
  | waits | refuses | issues | issuesInit => exact Or.inl rfl
  | lets f fs hp =>
    rw [State.foreignFrame_rest (State.frameActive_of_idle hp)]
    exact Or.inl rfl
  | advances d _ _ _ ht => exact ht.buf_getsAtMostOne

theorem environment_buf_getsAtMostOne (e : Event) (s : State) : s.buf.GetsAtMostOne (environment e s).buf := by
  cases e with
  | hostStore i v => exact Or.inr ⟨i, v, rfl⟩
  | reset => exact Or.inl s.resetBlock_buf
  | turn | hostOffer | hostRegWrite | busRequest | writeCycleDone => exact Or.inl rfl

theorem step_buf_getsAtMostOne {s t : State} (h : step s = .next t) : s.buf.GetsAtMostOne t.buf := by
  obtain ⟨es, hm | ⟨e, -, rfl⟩⟩ := step_next_cases h
  · exact (State.moves_of_move hm).buf_getsAtMostOne
  · exact environment_buf_getsAtMostOne e { s with agenda := es }

/-- A memory is in canonical form and within a space of `hi` addresses (R60). -/
def Memory.Fits (hi : Nat) (m : Memory) : Prop := m.wf = true ∧ m.below hi = true

theorem Memory.Fits.getsAtMostOne {m m' : Memory} (hm : m.Fits (2 ^ Config.lenW)) (h : m.GetsAtMostOne m') :
    m'.Fits (2 ^ Config.lenW) := by
  obtain ⟨hwf, hbelow⟩ := hm
  rcases h with rfl | ⟨i, v, rfl⟩
  · exact ⟨hwf, hbelow⟩
  · exact ⟨Memory.wf_write hwf _ v, Memory.below_write i.isLt hbelow v⟩

theorem Memory.Fits.writeRun {hi : Nat} {m : Memory} (hm : m.Fits hi) {addrOf : Nat → Nat}
    (h : ∀ i, addrOf i < hi) (i : Nat) (ds : List Byte) : (m.writeRun addrOf i ds).Fits hi :=
  ⟨Memory.wf_writeRun hm.1 addrOf i ds, Memory.below_writeRun h hm.2 i ds⟩

/-! ### What one step does to the chip -/

/-- What the chip may have received of a frame that ends in the step from `s`: any bytes where the frame is another
master's, and otherwise what it has received of the block's, perhaps with the byte the block presents (R82). -/
def State.mayEndWith (s : State) (rx : Option (List Byte)) : Prop :=
  s.phase ≠ .idle →
    s.link.attached = true ∧ s.frameActive = true ∧
      (rx = s.chip.rx ∨ ∃ out, s.tOut = some out ∧ rx = s.chip.rx.map (· ++ [out]))

/-- Everything one step does to the chip `c`, when a frame that ends in it has brought bytes as `mayEnd` says. -/
inductive Chip.Steps (c : Chip) (mayEnd : Option (List Byte) → Prop) : Chip → Prop
  /-- At most the received bytes change. -/
  | keeps {c' : Chip} (h : c.SameContents c') : c.Steps mayEnd c'
  /-- A frame ends. -/
  | frameEnds (rx : Option (List Byte)) (h : mayEnd rx) : c.Steps mayEnd (Chip.frameEnd { c with rx := rx })

theorem State.ExchangesTo.chip_eq {s u : State} {out inp : Byte} {fail : Bool} (hx : s.ExchangesTo out inp fail u) :
    u.chip = { s.chip with rx := u.chip.rx } ∧ (u.chip.rx = s.chip.rx ∨ u.chip.rx = s.chip.rx.map (· ++ [out])) := by
  rcases hx.chip with h | h <;> rw [h]
  · exact ⟨rfl, Or.inl rfl⟩
  · exact ⟨rfl, Or.inr rfl⟩

theorem State.ExchangesTo.frameEnd_steps {s u : State} {out inp : Byte} {fail : Bool}
    (hx : s.ExchangesTo out inp fail u) (hout : s.tOut = some out) (hl : u.link.attached = true) :
    s.chip.Steps s.mayEndWith u.chip.frameEnd := by
  obtain ⟨hchip, hrx⟩ := hx.chip_eq
  rw [hchip]
  exact .frameEnds u.chip.rx fun _ =>
    ⟨hx.attached ▸ hl, State.frameActive_of_tOut hout, hrx.imp_right fun h => ⟨out, hout, h⟩⟩

theorem Descriptor.Advances.chip_steps {d : Descriptor} {s t : State} (h : d.Advances s t) :
    s.chip.Steps s.mayEndWith t.chip := by
  cases h with
  | waits => exact .keeps (.refl _)
  | inits u _ hu => rw [(State.transportInit_spec hu).1]; exact .keeps (.refl _)
  | fails out inp u hout hx =>
    rw [State.raise_chip]
    split
    · rename_i hl; exact hx.frameEnd_steps hout hl.2
    · exact .keeps hx.chip_contents
  | ends out inp u hout hx =>
    rw [State.finish_chip, d.taken_chip, d.taken_link]
    split
    · rename_i hl; exact hx.frameEnd_steps hout hl
    · exact .keeps hx.chip_contents
  | goesOn out inp u q _ hx => exact .keeps (by simpa using hx.chip_contents)

theorem State.Moves.chip_steps {s t : State} (h : s.Moves t) : s.chip.Steps s.mayEndWith t.chip := by
  cases h with
  | waits | refuses | issuesInit => exact .keeps (.refl _)
  | issues => exact .keeps (s.issued_chip_contents ..)
  | lets f fs hp =>
    rw [State.foreignFrame_chip (State.frameActive_of_idle hp)]
    exact .frameEnds (some f) (absurd hp)
  | advances d _ _ _ ht => exact ht.chip_steps

theorem environment_chip_steps {e : Event} (he : e ≠ .writeCycleDone) (s : State) :
    s.chip.Steps s.mayEndWith (environment e s).chip := by
  cases e with
  | reset =>
    dsimp only [environment]
    rw [State.resetBlock_chip]
    split_ifs with hf
    · exact .frameEnds s.chip.rx fun _ => ⟨hf.2, hf.1, Or.inl rfl⟩
    · exact .keeps (.refl _)
    · exact .keeps (.refl _)
  | writeCycleDone => exact absurd rfl he
  | turn | hostOffer | hostStore | hostRegWrite | busRequest => exact .keeps (.refl _)

/-- In a step the end of a write cycle comes to the chip, or at most one frame ends. -/
theorem step_chip_steps {s t : State} (h : step s = .next t) :
    (∃ es, s.agenda = .writeCycleDone :: es ∧ t = environment .writeCycleDone { s with agenda := es }) ∨
    s.chip.Steps s.mayEndWith t.chip := by
  rcases step_cases s with ⟨-, hm⟩ | ⟨es, -, hm⟩ | ⟨e, es, ha, -, hm⟩ <;> rw [h] at hm
  · exact Or.inr (State.moves_of_move hm.symm).chip_steps
  · exact Or.inr (State.moves_of_move hm.symm).chip_steps
  · cases hm
    by_cases he : e = .writeCycleDone
    · subst he; exact Or.inl ⟨es, ha, rfl⟩
    · exact Or.inr (environment_chip_steps he { s with agenda := es })

/-- The end of a write cycle clears WIP and WEL and nothing else, and with WIP = 0 it does nothing (R91). -/
theorem Chip.writeCycleDone_eq (c : Chip) :
    c.writeCycleDone = { c with sr := if c.wip then c.sr &&& 0xFC else c.sr } := by
  unfold Chip.writeCycleDone; split <;> rfl

/-! ### The arrays, the lock and the write cycle -/

/-- MEM and IDP are in canonical form and within their spaces (R60 to R62). -/
structure Chip.Fits (c : Chip) : Prop where
  mem : c.mem.Fits Config.capacity
  idp : c.idp.Fits Config.idPageSize

theorem Chip.Fits.effect {c : Chip} (h : c.Fits) (rx : List Byte) : (c.effect rx).Fits := by
  constructor
  · rcases c.effect_mem rx with he | ⟨hi, mid, lo, ds, -, -, -, he⟩ <;> rw [he]
    · exact h.mem
    · exact h.mem.writeRun (mainWriteAddr_lt _) 0 ds
  · rcases c.effect_idp rx with he | ⟨hi, mid, lo, ds, -, -, -, -, he⟩ <;> rw [he]
    · exact h.idp
    · exact h.idp.writeRun (idWriteAddr_lt _) 0 ds

theorem Chip.Fits.frameEnd {c : Chip} (h : c.Fits) : c.frameEnd.Fits := by
  rcases c.frameEnd_spec with ⟨-, he⟩ | ⟨rx, -, he⟩ <;> rw [he]
  · exact h
  · exact ⟨(h.effect rx).mem, (h.effect rx).idp⟩

theorem Chip.Fits.steps {c c' : Chip} {mayEnd : Option (List Byte) → Prop} (h : c.Fits) (hc : c.Steps mayEnd c') :
    c'.Fits := by
  cases hc with
  | keeps hsame =>
    obtain ⟨hmem, hidp, -, -⟩ := hsame
    exact ⟨hmem ▸ h.mem, hidp ▸ h.idp⟩
  | frameEnds rx => exact Chip.Fits.frameEnd ⟨h.mem, h.idp⟩

theorem State.memoriesFit_iff (s : State) :
    s.memoriesFit = true ↔ s.buf.Fits (2 ^ Config.lenW) ∧ s.chip.Fits := by
  simp only [State.memoriesFit, Bool.and_eq_true, Memory.Fits]
  exact ⟨fun ⟨⟨⟨⟨⟨hb, hb'⟩, hm⟩, hm'⟩, hi⟩, hi'⟩ => ⟨⟨hb, hb'⟩, ⟨hm, hm'⟩, hi, hi'⟩,
    fun ⟨⟨hb, hb'⟩, ⟨hm, hm'⟩, hi, hi'⟩ => ⟨⟨⟨⟨⟨hb, hb'⟩, hm⟩, hm'⟩, hi⟩, hi'⟩⟩

/-- Settles O32: one byte of BUF goes to an index, and the bytes of a frame to addresses of their array. -/
theorem stepKeepsMemoriesFit : Obligations.StepKeepsMemoriesFit := by
  intro s t hs hstep
  obtain ⟨hbuf, hchip⟩ := s.memoriesFit_iff.mp hs
  refine t.memoriesFit_iff.mpr ⟨hbuf.getsAtMostOne (step_buf_getsAtMostOne hstep), ?_⟩
  rcases step_chip_steps hstep with ⟨es, -, rfl⟩ | hc
  · dsimp only [environment]
    rw [Chip.writeCycleDone_eq]
    exact ⟨hchip.mem, hchip.idp⟩
  · exact hchip.steps hc

theorem Chip.frameEnd_idp_of_locked {c : Chip} (h : c.locked = true) : c.frameEnd.idp = c.idp := by
  rcases c.frameEnd_spec with ⟨-, he⟩ | ⟨rx, -, he⟩ <;> rw [he]
  rcases c.effect_idp rx with hidp | ⟨-, -, -, -, -, hl, -⟩
  · exact hidp
  · simp [h] at hl

theorem Chip.Steps.idp_of_locked {c c' : Chip} {mayEnd : Option (List Byte) → Prop} (h : c.Steps mayEnd c')
    (hl : c.locked = true) : c'.idp = c.idp := by
  cases h with
  | keeps hsame => exact hsame.2.1
  | frameEnds rx => exact Chip.frameEnd_idp_of_locked (c := { c with rx := rx }) hl

/-- Settles O41: of all that happens to the chip only the end of a frame can store to IDP, and no frame stores to a
locked page. -/
theorem lockedIdPageNeverChanges : Obligations.LockedIdPageNeverChanges := by
  intro s t hl hstep
  rcases step_chip_steps hstep with ⟨es, -, rfl⟩ | hc
  · dsimp only [environment]
    rw [Chip.writeCycleDone_eq]
  · exact hc.idp_of_locked hl

theorem Chip.effect_of_wip {c : Chip} (h : c.wip = true) (rx : List Byte) : c.effect rx = c := by
  unfold Chip.effect; exact if_pos h

theorem Chip.frameEnd_contents_of_wip {c : Chip} (h : c.wip = true) : c.SameContents c.frameEnd := by
  rcases c.frameEnd_spec with ⟨-, he⟩ | ⟨rx, -, he⟩ <;> rw [he]
  · exact .refl c
  · rw [Chip.effect_of_wip h]; exact .refl c

theorem Chip.Steps.contents_of_wip {c c' : Chip} {mayEnd : Option (List Byte) → Prop} (h : c.Steps mayEnd c')
    (hwip : c.wip = true) : c.SameContents c' := by
  cases h with
  | keeps hsame => exact hsame
  | frameEnds rx => exact Chip.frameEnd_contents_of_wip (c := { c with rx := rx }) hwip

/-- Settles O42: during a write cycle the end of a frame has no effect. -/
theorem writeCycleShieldsTheChip : Obligations.WriteCycleShieldsTheChip := by
  intro s t hwip hstep hdone
  rcases step_chip_steps hstep with ⟨es, ha, -⟩ | hc
  · exact absurd ha (hdone es)
  · exact hc.contents_of_wip hwip

/-- Settles O57. -/
theorem writeCycleDoneClearsWipAndWel : Obligations.WriteCycleDoneClearsWipAndWel := by
  intro s es ha
  simp only [step, ha]
  rfl

end Sys2Proof.Machine
end

section
/-! PROOFS. Every command keeps to its array (R62, R73, R87, R93): what the chip has received when a frame of the block's
ends is as much of the command's header as has been sent, and the header decides which array the frame can write. -/

namespace Sys2Proof.Machine

/-! ### The arrays by opcode and address -/

theorem Chip.effect_idp_of_bitA10 (c : Chip) {hi mid lo : Byte} (h : bitA10 (addrOfBytes hi mid lo) = true)
    (ds : List Byte) : (c.effect (0x82 :: hi :: mid :: lo :: ds)).idp = c.idp := by
  have heffect : c.effect (0x82 :: hi :: mid :: lo :: ds) =
      if c.wip then c else c.effectLockId (addrOfBytes hi mid lo) ds := by
    unfold Chip.effect
    split
    · rfl
    · exact if_pos h
  rw [heffect]
  unfold Chip.effectLockId
  split_ifs
  · rfl
  · split
    · split_ifs <;> rfl
    · rfl

/-- IDP changes only by a frame with A10 = 0, so not by one of the lock sub-protocol (R63, R88). -/
theorem Chip.effect_idp_page (c : Chip) (rx : List Byte) :
    (c.effect rx).idp = c.idp ∨
    ∃ hi mid lo ds, rx = 0x82 :: hi :: mid :: lo :: ds ∧ bitA10 (addrOfBytes hi mid lo) = false ∧
      (c.effect rx).idp = c.idp.writeRun (idWriteAddr (addrOfBytes hi mid lo)) 0 ds := by
  rcases c.effect_idp rx with he | ⟨hi, mid, lo, ds, hrx, -, -, -, he⟩
  · exact Or.inl he
  · cases ha : bitA10 (addrOfBytes hi mid lo) with
    | true => exact Or.inl (hrx ▸ c.effect_idp_of_bitA10 ha ds)
    | false => exact Or.inr ⟨hi, mid, lo, ds, hrx, ha, he⟩

theorem descriptor_wop_write : ∀ op, ∀ d ∈ descriptor op, d.wop = some 0x02 → op = 0x1 ∨ op = 0x2 := by decide

theorem descriptor_wop_writeId :
    ∀ op, ∀ d ∈ descriptor op, d.wop = some 0x82 → op = 0x9 ∨ (op = 0xB ∧ d.akind = .lock) := by decide

/-! ### What the chip has received of a frame of the block's -/

/-- Before DATA the byte presented is the next one of the header (R104, R145 to R147). -/
theorem State.tOut_header {s : State} {d : Descriptor} {w : Byte} (hd : descriptor s.lOp = some d)
    (hw : d.wop = some w) (hf : s.frameActive = true) (hp : s.phase ≠ .data)
    (haddr : s.phase = .ahi ∨ s.phase = .amid ∨ s.phase = .alo → d.akind ≠ .noAddr) :
    ∃ out, s.tOut = some out ∧ d.headerUpTo w s.faddr s.phase ++ [out] <+: d.header w s.faddr := by
  cases h : s.phase <;> simp only [h] at haddr
  case idle | tinit => simp [State.frameActive, h, Phase.inFrame] at hf
  case data => exact absurd h hp
  case opc =>
    refine ⟨w, by rw [State.tOut_opc hd h, hw], ?_⟩
    rw [Descriptor.header]
    split
    · exact List.prefix_rfl
    · exact List.prefix_append [w] _
  all_goals
    have hheader : d.header w s.faddr = w :: addrBytes s.faddr := if_neg (haddr (by simp))
    rw [hheader]
  case ahi => exact ⟨addrHi s.faddr, by simp [State.tOut, hd, h], List.prefix_append [w, _] _⟩
  case amid => exact ⟨addrMid s.faddr, by simp [State.tOut, hd, h], List.prefix_append [w, _, _] _⟩
  case alo => exact ⟨addrLo s.faddr, by simp [State.tOut, hd, h], List.prefix_append [w, _, _, _] _⟩

/-- When a frame of the block's ends, the chip has received a part of the command's header, or all of it first. -/
theorem State.mayEndWith_header {s : State} {d : Descriptor} {rx : Option (List Byte)}
    (h : s.mayEndWith rx) (hbusy : s.phase ≠ .idle) (hd : descriptor s.lOp = some d)
    (hpos : s.positioned = true) (hs : s.headerSent) (hfollows : s.chipFollows) :
    ∃ w bs, d.wop = some w ∧ d.addrFits s.faddr = true ∧ rx = some bs ∧
       (bs <+: d.header w s.faddr ∨ d.header w s.faddr <+: bs) := by
  obtain ⟨hl, hf, hrx⟩ := h hbusy
  obtain ⟨⟨-, -, haddrFits⟩, -, haddr, -⟩ :=
    (Descriptor.positionFits_iff hf).mp (State.positioned_fits hpos hf hd)
  obtain ⟨w, hw⟩ := Descriptor.positionFits_wop (State.positioned_fits hpos hf hd)
  rw [hfollows hl hf] at hrx
  by_cases hp : s.phase = .data
  · obtain ⟨hpre, -⟩ := (State.headerSent_data hd hw hp).mp hs
    rcases hrx with rfl | ⟨out, -, rfl⟩
    · exact ⟨w, _, hw, haddrFits, rfl, Or.inr hpre⟩
    · exact ⟨w, _, hw, haddrFits, rfl, Or.inr (hpre.trans (List.prefix_append _ _))⟩
  · obtain ⟨next, hnext, hpre⟩ := State.tOut_header hd hw hf hp haddr
    rw [(State.headerSent_header hd hw hf hp).mp hs] at hrx
    rcases hrx with rfl | ⟨out, hout, rfl⟩
    · exact ⟨w, _, hw, haddrFits, rfl, Or.inl ((List.prefix_append _ _).trans hpre)⟩
    · obtain rfl := Option.some.inj (hnext.symm.trans hout)
      exact ⟨w, _, hw, haddrFits, rfl, Or.inl hpre⟩

/-- A frame that is comparable with a header begins with its opcode. -/
theorem Descriptor.header_opcode {d : Descriptor} {w op : Byte} {a : FrameAddr} {rest : List Byte}
    (h : op :: rest <+: d.header w a ∨ d.header w a <+: op :: rest) : op = w := by
  obtain ⟨tail, htail⟩ : ∃ tail, d.header w a = w :: tail := by
    unfold Descriptor.header
    split <;> exact ⟨_, rfl⟩
  rw [htail, List.cons_prefix_cons, List.cons_prefix_cons] at h
  exact h.elim And.left fun h => h.1.symm

/-- A frame with its three address bytes that is comparable with a header with an address has that address. -/
theorem Descriptor.header_address {d : Descriptor} {w op hi mid lo : Byte} {a : FrameAddr} {ds : List Byte}
    (hk : d.akind ≠ .noAddr)
    (h : op :: hi :: mid :: lo :: ds <+: d.header w a ∨ d.header w a <+: op :: hi :: mid :: lo :: ds) :
    [hi, mid, lo] = addrBytes a := by
  rw [Descriptor.header, if_neg hk, addrBytes] at h
  rcases h with h | h <;> simp_all [List.cons_prefix_cons, addrBytes]

theorem Chip.Steps.mem_eq {c c' : Chip} {mayEnd : Option (List Byte) → Prop} (h : c.Steps mayEnd c')
    (hend : ∀ rest, ¬ mayEnd (some (0x02 :: rest))) : c'.mem = c.mem := by
  cases h with
  | keeps hsame => exact hsame.1
  | frameEnds rx hrx =>
    rcases Chip.frameEnd_spec { c with rx := rx } with ⟨-, he⟩ | ⟨bs, hbs, he⟩ <;> rw [he]
    rcases Chip.effect_mem { c with rx := rx } bs with hmem | ⟨hi, mid, lo, ds, rfl, -⟩
    · exact hmem
    · obtain rfl : rx = _ := hbs
      exact absurd hrx (hend _)

theorem Chip.Steps.idp_eq {c c' : Chip} {mayEnd : Option (List Byte) → Prop} (h : c.Steps mayEnd c')
    (hend : ∀ hi mid lo ds, mayEnd (some (0x82 :: hi :: mid :: lo :: ds)) → bitA10 (addrOfBytes hi mid lo) = true) :
    c'.idp = c.idp := by
  cases h with
  | keeps hsame => exact hsame.2.1
  | frameEnds rx hrx =>
    rcases Chip.frameEnd_spec { c with rx := rx } with ⟨-, he⟩ | ⟨bs, hbs, he⟩ <;> rw [he]
    rcases Chip.effect_idp_page { c with rx := rx } bs with hidp | ⟨hi, mid, lo, ds, rfl, ha, -⟩
    · exact hidp
    · obtain rfl : rx = _ := hbs
      simp [hend hi mid lo ds hrx] at ha

theorem addrOfBytes_addrBytes (a : FrameAddr) : addrOfBytes (addrHi a) (addrMid a) (addrLo a) = a := by
  simp only [addrOfBytes, addrHi, addrMid, addrLo]
  ext i hi
  grind

theorem addrOfBytes_of_addrBytes {hi mid lo : Byte} {a : FrameAddr} (h : [hi, mid, lo] = addrBytes a) :
    addrOfBytes hi mid lo = a := by
  cases h
  exact addrOfBytes_addrBytes a

/-- Settles O36: a frame of the block's that ends has its command's opcode and address, as far as it goes. -/
theorem commandsKeepToTheirArray : Obligations.CommandsKeepToTheirArray := by
  intro s t hpos hs hfollows hbusy hstep
  rcases step_chip_steps hstep with ⟨es, -, rfl⟩ | hc
  · dsimp only [environment]
    rw [Chip.writeCycleDone_eq]
    exact ⟨fun _ _ => rfl, fun _ => rfl⟩
  · obtain ⟨d, hd⟩ := State.positioned_row hpos hbusy
    refine ⟨fun h1 h2 => hc.mem_eq fun rest hend => ?_, fun h9 => hc.idp_eq fun hi mid lo ds hend => ?_⟩
    · obtain ⟨w, bs, hw, -, hbs, hheader⟩ := State.mayEndWith_header hend hbusy hd hpos hs hfollows
      cases hbs
      obtain rfl := Descriptor.header_opcode hheader
      exact (descriptor_wop_write _ d hd hw).elim h1 h2
    · obtain ⟨w, bs, hw, haddr, hbs, hheader⟩ := State.mayEndWith_header hend hbusy hd hpos hs hfollows
      cases hbs
      obtain rfl := Descriptor.header_opcode hheader
      rcases descriptor_wop_writeId _ d hd hw with hop | ⟨-, hk⟩
      · exact absurd hop h9
      · simp only [Descriptor.addrFits, hk, decide_eq_true_eq] at haddr
        rw [addrOfBytes_of_addrBytes (Descriptor.header_address (by simp [hk]) hheader), haddr]
        decide

end Sys2Proof.Machine
end

section
/-! PROOFS. Each step of an open frame is one exchange, whatever answers it (R38, R80, R145 to R148, R151): the byte the
block presents, the byte received taken, the frame gone on or ended. -/

namespace Sys2Proof.Machine

/-! ### The step of an open frame -/

/-- The state an exchange starts from: a data step that sends a byte of BUF has noted its read (R37, R116). -/
def Descriptor.noted (d : Descriptor) (s : State) : State := if s.phase = .data then d.noteBufRead s else s

theorem State.exchange_congr {s pre : State} {out : Byte} {next next' : Byte → State → State}
    (h : ∀ inp u, u.phase = pre.phase → next inp u = next' inp u) :
    s.exchange pre out next = s.exchange pre out next' := by
  unfold State.exchange
  cases hx : pre.xchg out with
  | none => rfl
  | some x => simp only [h x.inp x.after (State.xchg_phase hx)]

/-- The step of an open frame in one equation for all its phases. -/
theorem Descriptor.advance_eq_exchange {d : Descriptor} {s : State} {out : Byte} (hd : descriptor s.lOp = some d)
    (hout : s.tOut = some out) :
    d.advance s = s.exchange (d.noted s) out (fun inp u => d.proceed (d.taken inp u)) := by
  have taken_of {p : Phase} {u : State} (hu : u.phase = p) (hne : p ≠ .data) (inp : Byte) : d.taken inp u = u :=
    if_neg (hu ▸ hne)
  unfold Descriptor.advance
  unfold State.tOut at hout
  simp only [hd] at hout
  cases hp : s.phase <;> simp only [hp] at hout ⊢
  case idle | tinit => cases hout
  case data =>
    rw [hout, Descriptor.noted, if_pos hp]
    exact State.exchange_congr fun inp u hu => d.afterData_eq_proceed inp (hu.trans (by simpa using hp))
  all_goals
    have hnoted : d.noted s = s := if_neg (by simp [hp])
    rw [hnoted]
  case opc =>
    rw [hout]
    refine State.exchange_congr fun inp u hu => ?_
    rw [taken_of (hu.trans hp) nofun]
    exact d.afterOpcode_eq_proceed (hu.trans hp)
  case ahi | amid =>
    cases hout
    refine State.exchange_congr fun inp u hu => ?_
    rw [taken_of (hu.trans hp) nofun, Descriptor.proceed, Descriptor.nextPhase, hu, hp]
  case alo =>
    cases hout
    refine State.exchange_congr fun inp u hu => ?_
    rw [taken_of (hu.trans hp) nofun]
    exact State.afterAddress_eq_proceed d (hu.trans hp)

/-- What the step of an open frame makes of the answer to its exchange (R145 to R148, R151). -/
def Descriptor.afterExchange (d : Descriptor) (x : Exchanged) : State :=
  if x.fail then x.after.raise .transportFailure else d.proceed (d.taken x.inp x.after)

theorem Descriptor.advance_of_xchg {d : Descriptor} {s : State} {out : Byte} {x : Exchanged}
    (hd : descriptor s.lOp = some d) (hout : s.tOut = some out) (hx : (d.noted s).xchg out = some x) :
    d.advance s = .next (d.afterExchange x) := by
  rw [Descriptor.advance_eq_exchange hd hout, State.exchange, hx, Descriptor.afterExchange]
  dsimp only
  split <;> rfl

/-- An open frame steps only where there is a byte to present. -/
theorem Descriptor.tOut_of_advance {d : Descriptor} {s t : State} (hd : descriptor s.lOp = some d)
    (hf : s.frameActive = true) (h : d.advance s = .next t) : ∃ out, s.tOut = some out := by
  unfold Descriptor.advance at h
  unfold State.tOut
  simp only [hd]
  cases hp : s.phase <;> simp only [hp] at h ⊢
  case idle | tinit => simp [State.frameActive, hp, Phase.inFrame] at hf
  case opc | data => split at h <;> simp_all
  case ahi | amid | alo => exact ⟨_, rfl⟩

/-! ### The responder receives the frame -/

theorem State.chipFollows_of_noFrame {s : State} (h : s.frameActive = false) : s.chipFollows := by
  intro _ hf
  simp [h] at hf

/-- A good exchange with the responder brings it the byte sent (R82). -/
theorem State.xchg_received {s : State} {out : Byte} {x : Exchanged} (h : s.xchg out = some x)
    (hgood : x.fail = false) (hl : s.link.attached = true) : x.after.chip = s.chip.receive out := by
  unfold State.xchg at h
  split at h
  · cases h
  · rename_i hlink
    simp [hlink, Link.attached] at hl
  · rename_i fs hlink
    cases h
    have hfail : (fs.headD false && s.cfg.tCanFail) = false := hgood
    simp only [hfail, Bool.not_false, Bool.true_or, if_true]

theorem State.xchg_chipFollows {s : State} {out : Byte} {x : Exchanged} (h : s.xchg out = some x)
    (hgood : x.fail = false) (hf : s.frameActive = true) (hs : s.chipFollows) : x.after.chipFollows := by
  intro hl _
  have hattached : s.link.attached = true := (State.xchg_spec h).2.2.1 ▸ hl
  rw [State.xchg_trace h, lastFrameBytes_xchg, State.xchg_received h hgood hattached, Chip.receive_rx,
    hs hattached hf]
  rfl

theorem Descriptor.proceed_chipFollows {d : Descriptor} {v : State} (hf : v.frameActive = true)
    (hv : v.chipFollows) : (d.proceed v).chipFollows := by
  unfold Descriptor.proceed
  split
  · exact State.chipFollows_of_noFrame v.finish_frameActive
  · exact fun hl _ => hv hl hf

theorem Descriptor.taken_chipFollows {d : Descriptor} {inp : Byte} {u : State} (hu : u.chipFollows) :
    (d.taken inp u).chipFollows := by
  intro hl hf
  simp only [State.frameActive, d.taken_link, d.taken_phase] at hl hf
  simpa using hu hl hf

theorem Descriptor.noted_chipFollows {d : Descriptor} {s : State} (hs : s.chipFollows) : (d.noted s).chipFollows := by
  unfold Descriptor.noted
  split
  · intro hl hf
    simp only [d.noteBufRead_link, d.noteBufRead_frameActive] at hl hf
    simpa using hs hl hf
  · exact hs

@[simp] theorem Descriptor.noted_phase (d : Descriptor) (s : State) : (d.noted s).phase = s.phase := by
  unfold Descriptor.noted; split <;> simp

theorem Descriptor.advance_chipFollows {d : Descriptor} {s t : State} (hd : descriptor s.lOp = some d)
    (hs : s.chipFollows) (hbusy : s.phase ≠ .idle) (h : d.advance s = .next t) : t.chipFollows := by
  by_cases hf : s.frameActive = true
  · obtain ⟨out, hout⟩ := Descriptor.tOut_of_advance hd hf h
    rw [Descriptor.advance_eq_exchange hd hout] at h
    have hpre : (d.noted s).frameActive = true := by rwa [State.frameActive, d.noted_phase]
    refine State.exchange_ind h hs
      (fun x _ _ => State.chipFollows_of_noFrame (x.after.raise_frameActive _)) fun x hx hgood => ?_
    refine Descriptor.proceed_chipFollows ?_
      (Descriptor.taken_chipFollows (State.xchg_chipFollows hx hgood hpre (Descriptor.noted_chipFollows hs)))
    rwa [State.frameActive, d.taken_phase, State.xchg_phase hx]
  · cases Descriptor.advances_of_advance hd hbusy h with
    | waits => exact hs
    | inits => exact State.chipFollows_of_noFrame rfl
    | fails _ _ _ hout | ends _ _ _ hout | goesOn _ _ _ _ hout =>
      exact absurd (State.frameActive_of_tOut hout) hf

theorem move_chipFollows {s t : State} (hs : s.chipFollows) (h : move s = .next t) : t.chipFollows := by
  cases State.moves_of_move h with
  | waits => exact hs
  | lets f fs hp =>
    have hf := State.frameActive_of_idle hp
    rw [State.foreignFrame_rest hf]
    exact State.chipFollows_of_noFrame hf
  | refuses c cs e hp => exact State.chipFollows_of_noFrame (State.frameActive_of_idle hp)
  | issues =>
    intro hl _
    simp only [State.issued] at hl ⊢
    simp [hl]
  | issuesInit => exact State.chipFollows_of_noFrame rfl
  | advances d _ hp hd => exact Descriptor.advance_chipFollows hd hs hp (move_busy hp hd ▸ h)

/-- Another agent's event leaves the open frame alone, or is a reset, which ends it. -/
theorem environment_chipFollows (e : Event) {s : State} (hs : s.chipFollows) : (environment e s).chipFollows := by
  cases e with
  | reset => exact State.chipFollows_of_noFrame (State.frameActive_of_idle s.resetBlock_phase)
  | writeCycleDone =>
    intro hl hf
    dsimp only [environment]
    rw [Chip.writeCycleDone_eq]
    exact hs hl hf
  | turn | hostOffer | hostStore | hostRegWrite | busRequest => exact hs

/-- Settles O35: the block's turn brings the responder the byte it sends, or ends the frame. -/
theorem chipReceivesTheFrame : Obligations.ChipReceivesTheFrame := by
  intro s t hs hstep
  obtain ⟨es, hm | ⟨e, -, rfl⟩⟩ := step_next_cases hstep
  · exact move_chipFollows (s := { s with agenda := es }) hs hm
  · exact environment_chipFollows e (s := { s with agenda := es }) hs

/-! ### The responder as one transport among all -/

/-- The states differ at most in what answers on the transport port: the link, the chip and the draws (R80). -/
def State.SameBlock (u t : State) : Prop := ∃ l c k, t = { u with link := l, chip := c, draws := k }

theorem State.SameBlock.complete {u t : State} (h : u.SameBlock t) : u.complete.SameBlock t.complete := by
  obtain ⟨l, c, k, rfl⟩ := h
  exact ⟨l, c, k, rfl⟩

theorem State.SameBlock.frameEnd {u t : State} (h : u.SameBlock t) : u.frameEnd.SameBlock t.frameEnd := by
  obtain ⟨l, c, k, rfl⟩ := h
  exact ⟨_, _, _, rfl⟩

theorem State.SameBlock.raise {u t : State} (h : u.SameBlock t) (e : ErrorCode) :
    (u.raise e).SameBlock (t.raise e) := by
  obtain ⟨l, c, k, rfl⟩ := h
  refine State.SameBlock.complete ?_
  unfold State.closeFrame
  by_cases hf : u.frameActive = true
  · rw [if_pos hf, if_pos (by exact hf)]; exact ⟨_, _, _, rfl⟩
  · rw [if_neg hf, if_neg (by exact hf)]; exact ⟨_, _, _, rfl⟩

theorem State.SameBlock.taken {u t : State} (h : u.SameBlock t) (d : Descriptor) (inp : Byte) :
    (d.taken inp u).SameBlock (d.taken inp t) := by
  obtain ⟨l, c, k, rfl⟩ := h
  refine ⟨l, c, k, ?_⟩
  unfold Descriptor.taken Descriptor.dataIn Descriptor.storeIndex
  grind [State.bufWrite]

theorem State.SameBlock.proceed {u t : State} (h : u.SameBlock t) (d : Descriptor) :
    (d.proceed u).SameBlock (d.proceed t) := by
  obtain ⟨l, c, k, rfl⟩ := h
  have hnext : d.nextPhase { u with link := l, chip := c, draws := k } = d.nextPhase u := rfl
  unfold Descriptor.proceed
  rw [hnext]
  cases d.nextPhase u with
  | none => exact ⟨_, _, _, rfl⟩
  | some q => exact ⟨_, _, _, rfl⟩

theorem State.SameBlock.afterExchange {x y : Exchanged} (h : y.after.SameBlock x.after) (hinp : y.inp = x.inp)
    (hfail : y.fail = x.fail) (d : Descriptor) : (d.afterExchange y).SameBlock (d.afterExchange x) := by
  unfold Descriptor.afterExchange
  rw [hinp, hfail]
  split
  · exact h.raise .transportFailure
  · exact (h.taken d x.inp).proceed d

/-- The state with another link on its transport port. -/
def State.wired (s : State) (l : Link) : State := { s with link := l }

@[simp] theorem Descriptor.noted_wired (d : Descriptor) (s : State) (l : Link) :
    d.noted (s.wired l) = (d.noted s).wired l := by
  unfold Descriptor.noted Descriptor.noteBufRead State.wired
  split_ifs <;> rfl

@[simp] theorem Descriptor.noted_link (d : Descriptor) (s : State) : (d.noted s).link = s.link := by
  unfold Descriptor.noted; split <;> simp

/-- Whatever the responder answers, a transport with that one answer in its list gives it too (R80). -/
theorem State.xchg_wired {s : State} {fs : List Bool} (hl : s.link = .responder fs) (out : Byte) :
    ∃ x y a, s.xchg out = some x ∧ (s.wired (.scripted [a])).xchg out = some y ∧
      y.inp = x.inp ∧ y.fail = x.fail ∧ y.after.SameBlock x.after := by
  obtain ⟨x, hx⟩ : ∃ x, s.xchg out = some x := by simp [State.xchg, hl]
  obtain ⟨hafter, -, -, -, hcan⟩ := State.xchg_spec hx
  have hfail : (x.fail && s.cfg.tCanFail) = x.fail := by
    cases hf : x.fail with
    | false => rfl
    | true => simp [hcan hf]
  refine ⟨x, _, ⟨x.inp, x.fail⟩, hx, State.xchg_scripted rfl out, rfl, hfail,
    x.after.link, x.after.chip, x.after.draws, ?_⟩
  rw [hafter]
  simp [State.wired, hfail]

/-- A step of the command in progress with the responder is the step with the answer it gives; for INIT, which needs a
transport that returns, any answer will do. -/
theorem Descriptor.advance_wired {d : Descriptor} {s t : State} {fs : List Bool} (hd : descriptor s.lOp = some d)
    (hbusy : s.phase ≠ .idle) (hl : s.link = .responder fs) (h : d.advance s = .next t) :
    ∃ a u, d.advance (s.wired (.scripted [a])) = .next u ∧ u.SameBlock t := by
  by_cases hf : s.frameActive = true
  · obtain ⟨out, hout⟩ := Descriptor.tOut_of_advance hd hf h
    obtain ⟨x, y, a, hx, hy, hinp, hfail, hsame⟩ := State.xchg_wired ((d.noted_link s).trans hl) out
    rw [Descriptor.advance_of_xchg hd hout hx] at h
    cases h
    exact ⟨a, _, Descriptor.advance_of_xchg (s := s.wired _) hd hout (by rwa [d.noted_wired]),
      hsame.afterExchange hinp hfail d⟩
  · have hp : s.phase = .tinit := by
      cases h : s.phase <;> simp [State.frameActive, h, Phase.inFrame] at hf hbusy ⊢
    simp only [Descriptor.advance, hp, State.transportInit, hl] at h
    cases h
    refine ⟨⟨0, false⟩, State.complete { s with link := .scripted [], trace := s.trace ++ [.tInit], phase := .idle },
      ?_, .responder fs, s.chip, s.draws, ?_⟩
    · simp [Descriptor.advance, State.wired, hp, State.transportInit]
    · simp [State.complete]

/-- Settles O25, by the step of the command in progress. -/
theorem responderIsOneTransport : Obligations.ResponderIsOneTransport := by
  intro s t fs hagenda hbusy hl hstep
  rw [step_turn hagenda] at hstep
  cases hd : descriptor s.lOp with
  | none => rw [move_unreachable hbusy hd] at hstep; cases hstep
  | some d =>
    rw [move_busy hbusy hd] at hstep
    obtain ⟨a, u, hu, l, c, k, ht⟩ := Descriptor.advance_wired hd hbusy hl hstep
    have hwired : step (s.wired (.scripted [a])) = .next u := by
      rw [step_turn (by exact hagenda), move_busy (by exact hbusy) (by exact hd), hu]
    exact ⟨a, l, c, k, u, hwired, ht⟩

/-! ### The write streams -/

/-- An answered step of a frame: the byte received is taken and the frame goes on or ends (R145 to R148). -/
theorem Descriptor.advance_answered {d : Descriptor} {s : State} {out : Byte} {a : Answer} {as : List Answer}
    (hd : descriptor s.lOp = some d) (hout : s.tOut = some out) (hl : s.link = .scripted (a :: as))
    (hgood : a.fail = false) :
    d.advance s = .next (d.proceed (d.taken a.inp ((d.noted s).exchanged out a as false))) := by
  rw [Descriptor.advance_of_xchg hd hout (State.xchg_scripted ((d.noted_link s).trans hl) out)]
  simp [hgood, Descriptor.afterExchange, State.exchanged]

theorem Descriptor.execute_busy {d : Descriptor} {s : State} (hp : s.phase ≠ .idle) (hop : s.lOp = d.op)
    (p : Payload) : d.execute p s = d.advance s := by
  rw [Descriptor.execute, if_neg hp, if_pos hop]

/-- A data step of a row that does not read drops the byte received (R116, R117). -/
theorem Descriptor.taken_of_not_read {d : Descriptor} (hdir : d.dir ≠ .read) (inp : Byte) {u : State}
    (hp : u.phase = .data) : d.taken inp u = { u with idx := u.idx + 1 } := by
  simp [Descriptor.taken, hp, Descriptor.dataIn, Descriptor.storeIndex, Descriptor.latchesRData,
    Descriptor.latchesRFlag, hdir]

/-- In DATA the frame ends with the byte that makes IDX equal to L_LEN (R148). -/
theorem Descriptor.proceed_data (d : Descriptor) {v : State} (hp : v.phase = .data) :
    d.proceed v = if v.idx = v.lLen then v.finish else v := by
  have hself : { v with phase := .data } = v := by rw [← hp]
  unfold Descriptor.proceed Descriptor.nextPhase
  rw [hp]
  dsimp only
  split_ifs
  · rfl
  · exact hself

theorem State.finish_detached {v : State} (hl : v.link.attached = false) : v.finish = v.ended := by
  simp [State.finish, State.ended, State.frameEnd, State.complete, hl]

/-- The data step of a row that writes from BUF, on a transport that answers. -/
theorem Descriptor.advance_bufferWrite {d : Descriptor} {s : State} {a : Answer} {as : List Answer}
    (hd : descriptor s.lOp = some d) (hdir : d.dir = .write) (hsrc : d.src = .buf) (hp : s.phase = .data)
    (hl : s.link = .scripted (a :: as)) (hgood : a.fail = false) :
    d.advance s = .next
      (let t : State :=
        { s.exchanged (s.buf.read s.idx.toNat) a as false with
          idx := s.idx + 1
          bufLog := s.bufLog ++ [.read s.idx] }
       if s.idx + 1 = s.lLen then t.ended else t) := by
  have hout : s.tOut = some (s.buf.read s.idx.toNat) := by
    simp [State.tOut, hd, hp, Descriptor.dataOut, hdir, hsrc, State.bufAt]
  have hnoted : d.noted s = { s with bufLog := s.bufLog ++ [.read s.idx] } := by
    simp [Descriptor.noted, hp, Descriptor.noteBufRead, hdir, hsrc]
  rw [Descriptor.advance_answered hd hout hl hgood, hnoted,
    Descriptor.taken_of_not_read (by simp [hdir]) a.inp (by exact hp), Descriptor.proceed_data d (by exact hp),
    State.finish_detached rfl]
  rfl

/-- Settles O21: the two commands that write from BUF take the same data step. -/
theorem bufferWritesSendEachByte : Obligations.BufferWritesSendEachByte := by
  intro p s a as i hp hl hgood hi
  have hbusy : s.phase ≠ .idle := by simp [hp]
  rcases hi with ⟨rfl, hop⟩ | ⟨rfl, hop⟩
  · exact (Descriptor.execute_busy (d := rowWriteBuffer) hbusy hop p).trans
      (Descriptor.advance_bufferWrite (by rw [hop]; rfl) rfl rfl hp hl hgood)
  · exact (Descriptor.execute_busy (d := rowWriteIdPage) hbusy hop p).trans
      (Descriptor.advance_bufferWrite (by rw [hop]; rfl) rfl rfl hp hl hgood)

end Sys2Proof.Machine
end

section
/-! PROOFS. The address field (R65, R110 to R114), and the frames of other masters of the bus: what each wire row does to
the chip (R84 to R90, R92). -/

namespace Sys2Proof.Machine

/-! ### The address field -/

theorem addrHi_toNat (a : FrameAddr) : (addrHi a).toNat = a.toNat / 65536 := by
  have := a.isLt
  simp only [addrHi, BitVec.extractLsb'_toNat, Nat.shiftRight_eq_div_pow]
  omega

theorem addrMid_toNat (a : FrameAddr) : (addrMid a).toNat = a.toNat / 256 % 256 := by
  simp only [addrMid, BitVec.extractLsb'_toNat, Nat.shiftRight_eq_div_pow]

theorem addrLo_toNat (a : FrameAddr) : (addrLo a).toNat = a.toNat % 256 := by
  simp only [addrLo, BitVec.extractLsb'_toNat, Nat.shiftRight_eq_div_pow]
  omega

theorem addrBytes_lockAddr : addrBytes Config.lockAddr = [0x00, 0x04, 0x00] := by decide

theorem encodeAddr_main_toNat (addr : HostAddr) : (encodeAddr .main addr).toNat = addr.toNat % 2 ^ 24 := by
  simp [encodeAddr]

/-- The ID frame address is (0, 0, idAddress) (R112). -/
theorem encodeAddr_id (addr : HostAddr) :
    encodeAddr .id addr = addrOfBytes 0x00 0x00 (addr.extractLsb' 0 8) := rfl

theorem addrOfBytes_page_toNat (lo : Byte) : (addrOfBytes 0x00 0x00 lo).toNat = lo.toNat := by
  change ((0 : BitVec 16) ++ lo).toNat = lo.toNat
  rw [BitVec.toNat_append]
  simp

/-- An address with only its low byte set has A10 = 0 (R63). -/
theorem bitA10_page (lo : Byte) : bitA10 (addrOfBytes 0x00 0x00 lo) = false := by
  have := lo.isLt
  rw [bitA10, BitVec.getLsbD, addrOfBytes_page_toNat]
  exact Nat.testBit_lt_two_pow (by omega)

/-- Settles O4, kind by kind. -/
theorem addressFieldIsBigEndian : Obligations.AddressFieldIsBigEndian := by
  refine ⟨fun addr => ⟨?_, encodeAddr_main_toNat addr, ?_, ?_, addrBytes_lockAddr, rfl⟩, fun a => ?_⟩
  · simp only [encodeAddr, addrBytes, addrHi, addrMid, addrLo, List.cons.injEq, and_true]
    refine ⟨?_, ?_, ?_⟩ <;> ext i hi <;> grind
  · rw [encodeAddr_id, addrBytes_addrOfBytes]
  · rw [encodeAddr_id]; exact bitA10_page _
  · rw [addrHi_toNat, addrMid_toNat, addrLo_toNat]
    omega

/-! ### A wire row is a frame -/

/-- A wire row's meaning sends the very frame it encodes to (R105). -/
theorem exec_of_encode {i : Instr} {bytes : List Byte} (h : encode i = .frame bytes) (s : State) :
    exec i s = .next (s.foreignFrame bytes) := by
  cases i <;> cases h <;> rfl

theorem encode_writeFrame {i : Instr} {hi mid lo : Byte} {ds : List Byte}
    (h : encode i = .frame (0x02 :: hi :: mid :: lo :: ds)) : i = .wireWrite (addrOfBytes hi mid lo) ds := by
  cases i <;> simp [encode, commandWord, addrBytes] at h
  case wireWrite a ds' =>
    obtain ⟨hhi, hmid, hlo, rfl⟩ := h
    rw [addrOfBytes_of_addrBytes (a := a) (by simp [addrBytes, hhi, hmid, hlo])]

/-- 0x82 serves two rows, told apart by the address bytes (R63, R105). -/
theorem encode_writeIdFrame {i : Instr} {hi mid lo : Byte} {ds : List Byte}
    (h : encode i = .frame (0x82 :: hi :: mid :: lo :: ds)) :
    (i = .wireWriteId lo ds ∧ hi = 0x00 ∧ mid = 0x00) ∨
    (∃ d, i = .wireLockId d ∧ addrOfBytes hi mid lo = Config.lockAddr) := by
  cases i <;> simp [encode, commandWord, addrBytes] at h
  case wireWriteId lo' ds' =>
    obtain ⟨rfl, rfl, rfl, rfl⟩ := h
    exact Or.inl ⟨rfl, rfl, rfl⟩
  case wireLockId d =>
    obtain ⟨hhi, hmid, hlo, -⟩ := h
    exact Or.inr ⟨d, rfl, addrOfBytes_of_addrBytes (by simp [addrBytes, hhi, hmid, hlo])⟩

/-! ### What a wire row leaves unchanged -/

section
variable {i : Instr} {bytes : List Byte} (hi : encode i = .frame bytes) (c : Chip)
include hi

/-- MEM changes only where a WRITE's bytes go (R86). -/
theorem Chip.effect_mem_read {a : Nat}
    (ha : ∀ addr ds, i = .wireWrite addr ds → ∀ k, k < ds.length → a ≠ mainWriteAddr addr k) :
    (c.effect bytes).mem.read a = c.mem.read a := by
  rcases c.effect_mem bytes with he | ⟨bhi, bmid, blo, ds, rfl, -, -, he⟩ <;> rw [he]
  refine Memory.read_writeRun_other _ _ _ _ fun k hk => ?_
  rw [Nat.zero_add]
  exact ha _ _ (encode_writeFrame hi) k hk

/-- IDP changes only where a WRITE_ID's bytes go (R88). -/
theorem Chip.effect_idp_read {a : Nat}
    (ha : ∀ lo ds, i = .wireWriteId lo ds → ∀ k, k < ds.length → a ≠ idWriteAddr (addrOfBytes 0x00 0x00 lo) k) :
    (c.effect bytes).idp.read a = c.idp.read a := by
  rcases c.effect_idp_page bytes with he | ⟨bhi, bmid, blo, ds, rfl, hpage, he⟩ <;> rw [he]
  refine Memory.read_writeRun_other _ _ _ _ fun k hk => ?_
  rw [Nat.zero_add]
  rcases encode_writeIdFrame hi with ⟨hrow, rfl, rfl⟩ | ⟨d, -, haddr⟩
  · exact ha _ _ hrow k hk
  · rw [haddr] at hpage
    exact absurd hpage (by decide)

/-- LOCKED changes only by a LOCK_ID (R89). -/
theorem Chip.effect_locked_eq (hlock : ∀ d, i ≠ .wireLockId d) : (c.effect bytes).locked = c.locked := by
  rcases c.effect_locked bytes with he | ⟨bhi, bmid, blo, d, rfl, ha, -⟩
  · exact he
  · rcases encode_writeIdFrame hi with ⟨-, rfl, rfl⟩ | ⟨d', hrow, -⟩
    · rw [bitA10_page] at ha
      cases ha
    · exact absurd hrow (hlock d')

end

/-- Settles O49: a wire row waits, or is sent and has the effect of its frame. -/
theorem wireFrame : Obligations.WireFrame := by
  intro i bytes s hi
  refine ⟨fun hf => by rw [exec_of_encode hi, State.foreignFrame_waits hf], fun hf => ?_⟩
  refine ⟨(s.foreignFrame bytes).chip, (s.foreignFrame bytes).busTrace, ?_, ?_⟩
  · rw [exec_of_encode hi]
    exact congrArg _ (State.foreignFrame_rest hf bytes)
  · rw [State.foreignFrame_chip hf]
    exact ⟨rfl, fun a ha => Chip.effect_mem_read hi _ ha, fun a ha => Chip.effect_idp_read hi _ ha,
      Chip.effect_locked_eq hi _⟩

/-! ### The effect of each row that writes -/

section
variable (c : Chip)

theorem Chip.effect_wren : c.effect [0x06] = if c.wip then c else c.effectWren := rfl

theorem Chip.effect_wrdi : c.effect [0x04] = if c.wip then c else c.effectWrdi := rfl

theorem Chip.effect_wrsr (d : Byte) : c.effect [0x01, d] = if c.wip then c else c.effectWrsr d := rfl

theorem Chip.effect_write (a : FrameAddr) (ds : List Byte) :
    c.effect (0x02 :: addrBytes a ++ ds) = if c.wip then c else c.effectWrite a ds :=
  congrArg (fun a' => if c.wip then c else c.effectWrite a' ds) (addrOfBytes_addrBytes a)

theorem Chip.effect_writeId (lo : Byte) (ds : List Byte) :
    c.effect (0x82 :: 0x00 :: 0x00 :: lo :: ds) =
      if c.wip then c else c.effectWriteId (addrOfBytes 0x00 0x00 lo) ds := by
  have hpage : ¬ bitA10 (addrOfBytes 0x00 0x00 lo) = true := Bool.eq_false_iff.mp (bitA10_page lo)
  unfold Chip.effect
  split
  · rfl
  · exact if_neg hpage

theorem Chip.effect_lockId (d : Byte) :
    c.effect (0x82 :: addrBytes Config.lockAddr ++ [d]) =
      if c.wip then c else c.effectLockId Config.lockAddr [d] := rfl

/-- Without protection WEL alone enables a write frame (R86). -/
theorem Chip.accepts_unprotected {c : Chip} (h : c.sr &&& 0x8C = 0) (rx : List Byte) : c.accepts rx = c.wel := by
  have hmask : c.sr &&& protectMask = 0 := h
  simp [Chip.accepts, hmask]

/-- Neither WIP nor what the chip accepts depends on the bytes it has received. -/
@[simp] theorem Chip.wip_rx (rx : Option (List Byte)) : ({ c with rx := rx } : Chip).wip = c.wip := rfl
@[simp] theorem Chip.accepts_rx (rx : Option (List Byte)) (frame : List Byte) :
    ({ c with rx := rx } : Chip).accepts frame = c.accepts frame := rfl

end

/-- A wire row sent while no frame is open: its effect on the chip, with no frame left open. -/
theorem exec_wire {i : Instr} {bytes : List Byte} {s : State} {c : Chip} (hi : encode i = .frame bytes)
    (hf : s.frameActive = false)
    (hc : (Chip.effect { s.chip with rx := some bytes } bytes).dropFrame = c) :
    ∃ t, exec i s = .next t ∧ t.chip = c :=
  ⟨_, exec_of_encode hi s, (State.foreignFrame_chip hf bytes).trans hc⟩

/-- A write frame that ends has its effect outside a write cycle and where its own condition holds (R84). -/
theorem Chip.dropFrame_effect (c c' : Chip) (p : Prop) [Decidable p] :
    Chip.dropFrame (if c.wip then c else if p then c' else c) =
      if c.wip = false ∧ p then c'.dropFrame else c.dropFrame := by
  cases c.wip
  · by_cases hp : p <;> simp [hp]
  · rfl

/-- Settles O50. -/
theorem wrenAndWrdiMoveTheLatch : Obligations.WrenAndWrdiMoveTheLatch := by
  intro s hf
  constructor
  · refine exec_wire rfl hf ?_
    rw [Chip.effect_wren, Chip.wip_rx]
    split <;> rfl
  · refine exec_wire rfl hf ?_
    rw [Chip.effect_wrdi, Chip.wip_rx]
    split <;> rfl

/-- WIP is set anyway, so WRSR need not keep it (R90). -/
theorem or_wip (x : Byte) : x &&& 0x03 ||| 0x01 = x &&& 0x02 ||| 0x01 := by
  revert x
  decide

/-- Settles O51. -/
theorem wrsrWritesTheStatusRegister : Obligations.WrsrWritesTheStatusRegister := by
  intro s d hf hsr
  refine exec_wire rfl hf ?_
  rw [Chip.effect_wrsr, Chip.effectWrsr, Chip.accepts_rx, Chip.accepts_unprotected hsr, Chip.dropFrame_effect,
    Chip.wip_rx]
  split
  · rename_i h
    rw [if_pos h.symm, BitVec.or_assoc, ← or_wip, ← BitVec.or_assoc]; rfl
  · rename_i h
    rw [if_neg (mt And.symm h)]; rfl

/-- The page of a WRITE is A[17:8], and the offset in it wraps (R61, R67, R86). -/
theorem mainWriteAddr_eq (a : FrameAddr) (i : Nat) :
    mainWriteAddr a i = (a.extractLsb' 8 10).toNat * 256 + ((a.extractLsb' 0 8).toNat + i) % 256 := by
  simp only [mainWriteAddr, Config.capacity, Config.pageSize, Config.pageCount, BitVec.extractLsb'_toNat,
    Nat.shiftRight_eq_div_pow]
  omega

/-- Settles O52. -/
theorem writeFrameStoresInOnePage : Obligations.WriteFrameStoresInOnePage := by
  intro s a ds hf hsr
  refine exec_wire rfl hf ?_
  rw [Chip.effect_write, Chip.effectWrite, Chip.accepts_rx, Chip.accepts_unprotected hsr, Chip.dropFrame_effect,
    Chip.wip_rx, ← funext (mainWriteAddr_eq a)]
  exact if_congr (by tauto) rfl rfl

theorem idWriteAddr_page (lo : Byte) (i : Nat) :
    idWriteAddr (addrOfBytes 0x00 0x00 lo) i = (lo.toNat + i) % 256 := by
  rw [idWriteAddr, addrOfBytes_page_toNat, Nat.mod_add_mod]

/-- Settles O53. -/
theorem writeIdFrameStoresInTheIdPage : Obligations.WriteIdFrameStoresInTheIdPage := by
  intro s lo ds hf hsr
  refine exec_wire rfl hf ?_
  rw [Chip.effect_writeId, Chip.effectWriteId, Chip.accepts_rx, Chip.accepts_unprotected hsr, Chip.dropFrame_effect,
    Chip.wip_rx, funext (idWriteAddr_page lo)]
  exact if_congr (by tauto) rfl rfl

/-- Settles O54. -/
theorem lockIdFrameLocks : Obligations.LockIdFrameLocks := by
  intro s d hf hsr
  refine exec_wire rfl hf ?_
  rw [Chip.effect_lockId, Chip.effectLockId, Chip.accepts_rx, Chip.accepts_unprotected hsr, Chip.dropFrame_effect,
    Chip.wip_rx]
  exact if_congr (by tauto) rfl rfl

/-- A write frame has its whole effect or none, whatever its condition. -/
theorem Chip.dropFrame_effect_or (c c' : Chip) (p : Prop) [Decidable p] :
    Chip.dropFrame (if c.wip then c else if p then c' else c) = c.dropFrame ∨
      Chip.dropFrame (if c.wip then c else if p then c' else c) = c'.dropFrame := by
  rw [Chip.dropFrame_effect]
  split
  · exact Or.inr rfl
  · exact Or.inl rfl

/-- Settles O55: what a protected chip accepts is a free value, and nothing else of a frame's effect is. -/
theorem protectedWriteFramesAreAllOrNothing : Obligations.ProtectedWriteFramesAreAllOrNothing := by
  intro s hf _ _
  refine ⟨fun d => ⟨_, rfl, ?_⟩, fun a ds => ⟨_, rfl, ?_⟩, fun lo ds => ⟨_, rfl, ?_⟩, fun d => ⟨_, rfl, ?_⟩⟩ <;>
    rw [State.foreignFrame_chip hf]
  · rw [Chip.effect_wrsr]; exact Chip.dropFrame_effect_or ..
  · rw [Chip.effect_write]; exact Chip.dropFrame_effect_or ..
  · rw [Chip.effect_writeId]; exact Chip.dropFrame_effect_or ..
  · rw [Chip.effect_lockId]; exact Chip.dropFrame_effect_or ..

end Sys2Proof.Machine
end

section
/-! PROOFS. What another master's read frame is answered (R83, R87, R88), and that a page written reads back (R67,
R93). -/

namespace Sys2Proof.Machine

/-! ### The answers to a frame -/

/-- The chip's answers to bytes in turn, the draws for unspecified answers numbered from `k` (R82, R83). -/
def Chip.answers (c : Chip) (k : Nat) : List Byte → List Byte
  | [] => []
  | b :: bs => c.answer (Config.unspecifiedByte k) :: (c.receive b).answers (k + 1) bs

theorem State.foreignBytes_busTrace (s : State) (bytes : List Byte) :
    (s.foreignBytes bytes).busTrace = s.busTrace ++
      List.zipWith (fun out inp => WireEvent.xchg out inp false) bytes (s.chip.answers s.draws bytes) := by
  induction bytes generalizing s with
  | nil => simp [State.foreignBytes]
  | cons b bs ih =>
    have hrest := ih (s.foreignByte b)
    unfold State.foreignBytes at hrest ⊢
    rw [List.foldl_cons, hrest]
    simp [Chip.answers]

/-- Another master's trace gets the frame with the chip's answers (R82). -/
theorem State.foreignFrame_busTrace {s : State} (hf : s.frameActive = false) (bytes : List Byte) :
    (s.foreignFrame bytes).busTrace =
      s.busTrace ++ frameEvents bytes (s.chip.openFrame.answers s.draws bytes) := by
  simp [State.foreignFrame, hf, State.foreignBytes_busTrace, frameEvents]

/-- The answers to a run of equal bytes, each from the bytes received before it. -/
theorem Chip.answers_replicate {c : Chip} {pre : List Byte} (hrx : c.rx = some pre) (k n : Nat) (b : Byte) :
    c.answers k (List.replicate n b) = (List.range n).map fun j =>
      Chip.answer { c with rx := some (pre ++ List.replicate j b) } (Config.unspecifiedByte (k + j)) := by
  induction n generalizing c k pre with
  | zero => rfl
  | succ n ih =>
    have hself : ({ c with rx := some (pre ++ List.replicate 0 b) } : Chip) = c := by simp [← hrx]
    rw [List.replicate_succ, Chip.answers, ih (pre := pre ++ [b]) (by simp [hrx]), List.range_succ_eq_map,
      List.map_cons, List.map_map, hself]
    simp [Function.comp_def, Chip.receive, List.replicate_succ, Nat.add_assoc, Nat.add_comm 1]

/-- A stream of equal bytes after a header of four is answered four bytes and then its own answers. -/
theorem Chip.answers_stream (c : Chip) (k : Nat) (op hi mid lo : Byte) (n : Nat) (b : Byte) :
    ∃ h0 h1 h2 h3, c.openFrame.answers k (op :: hi :: mid :: lo :: List.replicate n b) =
      [h0, h1, h2, h3] ++ (List.range n).map fun j =>
        Chip.answer { c with rx := some (op :: hi :: mid :: lo :: List.replicate j b) }
          (Config.unspecifiedByte (k + 4 + j)) := by
  exact ⟨_, _, _, _, congrArg ([_, _, _, _] ++ ·)
    (Chip.answers_replicate (c := { c with rx := some [op, hi, mid, lo] }) rfl (k + 4) n b)⟩

/-! ### One answer of each read row -/

section
variable {c : Chip} (hwip : c.wip = false) (ds : List Byte) (free : Byte)
include hwip

/-- READ answers MAIN and rolls over at its top (R83). -/
theorem Chip.answer_read (a : FrameAddr) :
    Chip.answer { c with rx := some (0x03 :: addrBytes a ++ ds) } free = c.mem.read (mainReadAddr a ds.length) := by
  simp [Chip.answer, addrBytes, hwip, addrOfBytes_addrBytes]

/-- READ_ID answers IDP up to address 255; past it the answer is unspecified (R83, R88). -/
theorem Chip.answer_readId (lo : Byte) :
    Chip.answer { c with rx := some (0x83 :: 0x00 :: 0x00 :: lo :: ds) } free =
      if lo.toNat + ds.length ≤ 255 then c.idp.read (lo.toNat + ds.length) else free := by
  have hanswer : Chip.answer { c with rx := some (0x83 :: 0x00 :: 0x00 :: lo :: ds) } free =
      if c.wip then free
      else if bitA10 (addrOfBytes 0x00 0x00 lo) then lockStatusByte c.locked free
      else if (addrOfBytes 0x00 0x00 lo).toNat % 256 + ds.length < 256 then
        c.idp.read ((addrOfBytes 0x00 0x00 lo).toNat % 256 + ds.length)
      else free := rfl
  rw [hanswer, hwip, bitA10_page, addrOfBytes_page_toNat, Nat.mod_eq_of_lt lo.isLt]
  simp only [Bool.false_eq_true, if_false]
  exact if_congr (by omega) rfl rfl

/-- READ_LOCK_STATUS answers the lock status byte (R83). -/
theorem Chip.answer_readLockStatus :
    Chip.answer { c with rx := some [0x83, 0x00, 0x04, 0x00] } free = lockStatusByte c.locked free := by
  have hanswer : Chip.answer { c with rx := some [0x83, 0x00, 0x04, 0x00] } free =
      if c.wip then free else lockStatusByte c.locked free := rfl
  rw [hanswer, hwip]
  rfl

end

theorem lockStatusByte_bit0 (locked : Bool) (free : Byte) : (lockStatusByte locked free).getLsbD 0 = locked := by
  cases locked <;> simp [lockStatusByte]

theorem mainReadAddr_eq (a : FrameAddr) (k : Nat) :
    mainReadAddr a k = ((a.extractLsb' 0 18).toNat + k) % 0x40000 := by
  simp [mainReadAddr, Config.capacity, Config.pageSize, Config.pageCount]

/-! ### The read frames -/

/-- A wire row that reads: it leaves the chip as it was, and its answers stand in the other masters' trace. -/
theorem exec_wireRead {i : Instr} {op : Byte} {rest : List Byte} {s : State}
    (hi : encode i = .frame (op :: rest)) (hop : op = 0x03 ∨ op = 0x05 ∨ op = 0x83) (hf : s.frameActive = false) :
    ∃ t, exec i s = .next t ∧ t.chip = { s.chip with rx := none } ∧
      t.busTrace = s.busTrace ++ frameEvents (op :: rest) (s.chip.openFrame.answers s.draws (op :: rest)) := by
  refine ⟨_, exec_of_encode hi s, ?_, State.foreignFrame_busTrace hf _⟩
  rw [State.foreignFrame_chip hf, Chip.effect_read _ rest hop]

/-- A READ frame is answered the bytes of MAIN from its address on (R83). -/
theorem exec_wireRead_answers {s : State} (hf : s.frameActive = false) (hwip : s.chip.wip = false) (a : FrameAddr)
    (n : Nat) :
    ∃ t h0 h1 h2 h3, exec (.wireRead a n) s = .next t ∧ t.chip = { s.chip with rx := none } ∧
      t.busTrace = s.busTrace ++ frameEvents
        ([0x03, addrHi a, addrMid a, addrLo a] ++ List.replicate n 0x00)
        ([h0, h1, h2, h3] ++ (List.range n).map fun k => s.chip.mem.read (mainReadAddr a k)) := by
  obtain ⟨t, ht, hchip, htrace⟩ := exec_wireRead (i := .wireRead a n) rfl (Or.inl rfl) hf
  obtain ⟨h0, h1, h2, h3, hanswers⟩ :=
    s.chip.answers_stream s.draws 0x03 (addrHi a) (addrMid a) (addrLo a) n Config.dummy
  refine ⟨t, h0, h1, h2, h3, ht, hchip, htrace.trans ?_⟩
  refine congrArg (s.busTrace ++ frameEvents _ ·) (hanswers.trans (congrArg _ (List.map_congr_left fun k _ => ?_)))
  simpa [addrBytes] using Chip.answer_read hwip (List.replicate k Config.dummy) (Config.unspecifiedByte (s.draws + 4 + k)) a

/-- Settles O56, row by row. -/
theorem readFramesAnswerTheArrays : Obligations.ReadFramesAnswerTheArrays := by
  intro s hf
  refine ⟨?_, fun hwip a n => ?_, fun hwip lo n => ?_, fun hwip => ?_⟩
  · obtain ⟨t, ht, hchip, htrace⟩ := exec_wireRead (i := .wireRdsr) rfl (Or.inr (Or.inl rfl)) hf
    exact ⟨t, _, ht, hchip, htrace⟩
  · obtain ⟨t, h0, h1, h2, h3, ht, hchip, htrace⟩ := exec_wireRead_answers hf hwip a n
    simp only [mainReadAddr_eq] at htrace
    exact ⟨t, h0, h1, h2, h3, ht, hchip, htrace⟩
  · obtain ⟨t, ht, hchip, htrace⟩ := exec_wireRead (i := .wireReadId lo n) rfl (Or.inr (Or.inr rfl)) hf
    obtain ⟨h0, h1, h2, h3, hanswers⟩ := s.chip.answers_stream s.draws 0x83 0x00 0x00 lo n Config.dummy
    refine ⟨t, h0, h1, h2, h3, fun k => Config.unspecifiedByte (s.draws + 4 + k), ht, hchip, htrace.trans ?_⟩
    refine congrArg (s.busTrace ++ frameEvents _ ·) (hanswers.trans (congrArg _ (List.map_congr_left fun k _ => ?_)))
    simpa using Chip.answer_readId hwip (List.replicate k Config.dummy) (Config.unspecifiedByte (s.draws + 4 + k)) lo
  · obtain ⟨t, ht, hchip, htrace⟩ := exec_wireRead (i := .wireReadLockStatus) rfl (Or.inr (Or.inr rfl)) hf
    refine ⟨t, _, _, _, _, _, ht, hchip, ?_, htrace⟩
    exact (congrArg (·.getLsbD 0) (Chip.answer_readLockStatus hwip _)).trans (lockStatusByte_bit0 _ _)

/-! ### A page written reads back -/

/-- A run of bytes to distinct addresses reads back in order. -/
theorem Memory.read_writeRun_same {m : Memory} (hm : m.wf = true) {addrOf : Nat → Nat} (i : Nat) (ds : List Byte)
    (hinj : ∀ j k, j < k → k < ds.length → addrOf (i + j) ≠ addrOf (i + k)) {k : Nat} (hk : k < ds.length) :
    (m.writeRun addrOf i ds).read (addrOf (i + k)) = ds[k] := by
  induction ds generalizing m i k with
  | nil => simp at hk
  | cons d ds ih =>
    rw [Memory.writeRun]
    have shift (j : Nat) : i + 1 + j = i + (j + 1) := by omega
    cases k with
    | zero =>
      rw [Memory.read_writeRun_other]
      · exact Memory.read_write_same (lo := 0) hm (addrOf i) d
      · intro j hj
        rw [shift]
        exact hinj 0 (j + 1) (by omega) (by simpa using hj)
    | succ k =>
      have hrest := ih (Memory.wf_write hm (addrOf i) d) (i + 1) (k := k)
        (fun j l hjl hl => by rw [shift, shift]; exact hinj (j + 1) (l + 1) (by omega) (by simpa using hl))
        (by simpa using hk)
      rwa [shift] at hrest

/-- Inside a page a WRITE goes where a READ looks (R67, R83, R86). -/
theorem mainReadAddr_eq_mainWriteAddr {a : FrameAddr} {k : Nat} (h : a.toNat % 256 + k < 256) :
    mainReadAddr a k = mainWriteAddr a k := by
  simp only [mainReadAddr, mainWriteAddr, Config.capacity, Config.pageSize, Config.pageCount]
  omega

theorem mainReadAddr_ne {a : FrameAddr} {j k : Nat} (hjk : j < k) (h : a.toNat % 256 + k < 256) :
    mainReadAddr a j ≠ mainReadAddr a k := by
  simp only [mainReadAddr, Config.capacity, Config.pageSize, Config.pageCount]
  omega

theorem Memory.read_page {m : Memory} (hm : m.wf = true) {a : FrameAddr} {ds : List Byte}
    (hpage : a.toNat % 256 + ds.length ≤ 256) :
    ((List.range ds.length).map fun k => (m.writeRun (mainWriteAddr a) 0 ds).read (mainReadAddr a k)) = ds := by
  have addr {k : Nat} (hk : k < ds.length) : mainReadAddr a k = mainWriteAddr a k :=
    mainReadAddr_eq_mainWriteAddr (by omega)
  refine List.ext_getElem (by simp) fun k hk _ => ?_
  have hk' : k < ds.length := by simpa using hk
  simp only [List.getElem_map, List.getElem_range]
  have hsame := Memory.read_writeRun_same hm (addrOf := mainWriteAddr a) 0 ds (fun j l hjl hl => by
    rw [Nat.zero_add, Nat.zero_add, ← addr (hjl.trans hl), ← addr hl]
    exact mainReadAddr_ne hjl (by omega)) hk'
  rwa [Nat.zero_add, ← addr hk'] at hsame

theorem wip_cleared (x : Byte) : (x &&& 0xFC).getLsbD 0 = false := by
  revert x
  decide

/-- No write cycle runs after its end (R91). -/
theorem Chip.writeCycleDone_wip (c : Chip) : c.writeCycleDone.wip = false := by
  rw [Chip.writeCycleDone_eq]
  unfold Chip.wip
  dsimp only
  split
  · exact wip_cleared c.sr
  · rename_i h; simpa [Chip.wip] using h

/-- Settles O58. -/
theorem pageWriteReadsBack : Obligations.PageWriteReadsBack := by
  intro s a ds hf hwf hsr hwel hwip hds hpage
  obtain ⟨t, ht, hchip⟩ := writeFrameStoresInOnePage s a ds hf hsr
  rw [if_pos ⟨hwel, hwip, hds⟩, ← funext (mainWriteAddr_eq a)] at hchip
  have htf : (environment .writeCycleDone t).frameActive = false := by
    cases (exec_of_encode (i := .wireWrite a ds) rfl s).symm.trans ht
    rw [State.foreignFrame_rest hf]
    exact hf
  have hmem : (environment .writeCycleDone t).chip.mem = s.chip.mem.writeRun (mainWriteAddr a) 0 ds := by
    dsimp only [environment]
    rw [Chip.writeCycleDone_eq, hchip]
  obtain ⟨u, h0, h1, h2, h3, hu, -, htrace⟩ :=
    exec_wireRead_answers htf t.chip.writeCycleDone_wip a ds.length
  rw [hmem, Memory.read_page hwf hpage] at htrace
  exact ⟨t, u, h0, h1, h2, h3, ht, hu, htrace⟩

end Sys2Proof.Machine
end

section
/-! PROOFS. The byte round trip of block and responder together (R93): three commands whole, each with the chip's part
in it. -/

namespace Sys2Proof.Machine

/-! ### Runs and issues -/

theorem run_trans {m n : Nat} {s t u : State} (h : core.run m s = .next t) (h' : core.run n t = .next u) :
    core.run (m + n) s = .next u := by
  induction m generalizing s with
  | zero => cases h; rwa [Nat.zero_add]
  | succ m ih =>
    rw [Nat.add_right_comm]
    simp only [Host.Core.run] at h ⊢
    split at h
    · exact ih h
    · cases h
    · cases h

theorem run_one {s t : State} (h : step s = .next t) : core.run 1 s = .next t := by
  have hcore : core.step s = .next t := h
  simp [Host.Core.run, hcore]

theorem step_of_blockMoves {s : State} (h : s.blockMoves = true) :
    step s = move { s with agenda := s.agenda.tail } := by
  rcases step_cases s with ⟨ha, hm⟩ | ⟨es, ha, hm⟩ | ⟨e, es, ha, he, -⟩
  · rw [hm, ha, List.tail_nil, ← ha]
  · rw [hm, ha, List.tail_cons]
  · simp [State.blockMoves, ha, he] at h

theorem Descriptor.issue_eq_issued {op : OpCode} {d : Descriptor} {w : Byte} {p : Payload} {s : State}
    (hd : descriptor op = some d) (hw : d.wop = some w) (h : d.issueError s.cfg.checkEn p = none) :
    d.issue p s = s.issued op (encodeAddr d.akind p.addr) (d.length p.len) p.data := by
  obtain rfl := descriptor_op hd
  rw [Descriptor.issue_accepted h, Descriptor.accept, hw]
  rfl

/-- An idle block with the responder behind its port and the command `c` before it, at its turn. -/
structure State.Ready (s : State) (c : Command) : Prop where
  idle : s.phase = .idle
  noFrame : s.bus = []
  offered : s.cmd.head? = some c
  responder : s.link = .responder []
  turn : s.blockMoves = true

theorem State.Ready.issues {s : State} {c : Command} {d : Descriptor} {w : Byte} (h : s.Ready c)
    (hd : descriptor c.op = some d) (hw : d.wop = some w) (herr : d.issueError s.cfg.checkEn c.payload = none) :
    core.run 1 s = .next (State.issued { s with link := .responder [], agenda := s.agenda.tail } c.op
      (encodeAddr d.akind c.payload.addr) (d.length c.payload.len) c.payload.data) := by
  obtain ⟨cs, hcs⟩ : ∃ cs, s.cmd = c :: cs := List.head?_eq_some_iff.mp h.offered
  rw [← h.responder]
  refine run_one ((step_of_blockMoves h.turn).trans ?_)
  rw [move_idle_command (s := { s with agenda := s.agenda.tail }) h.idle h.noFrame hcs hd]
  exact congrArg _ (Descriptor.issue_eq_issued hd hw herr)

/-! ### Three whole commands -/

/-- What the next command sees of a whole command from `s` to `t`: it is over, it has returned `n` bytes and `r`, the
chip is left as `c`, and the events `es` are still to come. -/
structure State.Completes (s : State) (n : Len) (r : Byte) (c : Chip) (es : List Event) (t : State) : Prop where
  phase : t.phase = .idle
  rData : t.rData = r
  cmd : t.cmd = s.cmd.tail
  responses : t.responses = s.responses ++ [{ count := n, data := r, flag := false, err := .noError }]
  link : t.link = .responder []
  chip : t.chip = c
  bus : t.bus = s.bus
  agenda : t.agenda = es

theorem State.Completes.ready {s t : State} {n : Len} {r : Byte} {c : Chip} {es : List Event}
    (h : s.Completes n r c es t) (hb : s.bus = []) {next : Command} (hnext : s.cmd.tail.head? = some next)
    (hes : es.head? = none ∨ es.head? = some .turn) : t.Ready next where
  idle := h.phase
  noFrame := h.bus.trans hb
  offered := h.cmd ▸ hnext
  responder := h.link
  turn := by
    rw [State.blockMoves, h.agenda]
    cases es <;> simp_all

/-- The chip after a frame of these bytes. -/
def Chip.after (c : Chip) (bytes : List Byte) : Chip := (Chip.effect { c with rx := some bytes } bytes).dropFrame

/-- The frame of SET_WRITE_ENABLE, run step by step: its opcode (R202). -/
theorem run_issued_setWriteEnable (s : State) (b : Byte) (es : List Event) :
    ∃ t, core.run 1 (State.issued { s with link := .responder [], agenda := .turn :: es } 0x7 0 0 b) = .next t ∧
      s.Completes 0 0 (s.chip.after [0x06]) es t := by
  refine ⟨_, rfl, ?_⟩
  constructor <;> rfl

/-- The frame of WRITE_BYTE, run step by step: its opcode, three address bytes and L_DATA (R180). -/
theorem run_issued_writeByte (s : State) (a : FrameAddr) (b : Byte) (es : List Event) :
    ∃ t, core.run 5 (State.issued { s with link := .responder [], agenda := List.replicate 5 .turn ++ es }
        0x1 a 1 b) = .next t ∧
      s.Completes 1 0 (s.chip.after (0x02 :: addrBytes a ++ [b])) es t := by
  refine ⟨_, rfl, ?_⟩
  constructor <;> rfl

/-- The frame of READ_BYTE, run step by step: its opcode, three address bytes and one dummy (R182). -/
theorem run_issued_readByte (s : State) (a : FrameAddr) (b : Byte) :
    ∃ t, core.run 5 (State.issued { s with link := .responder [], agenda := [] } 0x3 a 1 b) = .next t ∧
      s.Completes 1
        (Chip.answer { s.chip with rx := some (0x03 :: addrBytes a) } (Config.unspecifiedByte (s.draws + 4)))
        (s.chip.after (0x03 :: addrBytes a ++ [Config.dummy])) [] t := by
  refine ⟨_, rfl, ?_⟩
  constructor <;> rfl

/-- SET_WRITE_ENABLE from issue to completion (R202). -/
theorem run_setWriteEnable {s : State} {p : Payload} {es : List Event} (h : s.Ready ⟨0x7, p⟩)
    (ha : s.agenda = .turn :: .turn :: es) :
    ∃ t, core.run 2 s = .next t ∧ s.Completes 0 0 (s.chip.after [0x06]) es t := by
  obtain ⟨t, hrun, hdone⟩ := run_issued_setWriteEnable s p.data es
  have hissue := h.issues (d := rowSetWriteEnable) (w := 0x06) rfl rfl (by cases s.cfg.checkEn <;> rfl)
  rw [ha] at hissue
  exact ⟨t, run_trans hissue hrun, hdone⟩

/-- A one-byte command on the main array passes its checks at every address of the array (R241, R242). -/
theorem Descriptor.issueError_main {d : Descriptor} (hk : d.akind = .main) (hpage : d.pageCheck = false)
    {p : Payload} (hp : p.addr.toNat < 0x40000) (checkEn : Bool) : d.issueError checkEn p = none := by
  have hrange : d.outOfRange p.addr = false := by
    simpa [Descriptor.outOfRange, hk, Config.capacity, Config.pageSize, Config.pageCount] using hp
  have hcross : d.crossesPage p = false := by simp [Descriptor.crossesPage, hpage]
  simp [Descriptor.issueError, hrange, hcross]

/-- WRITE_BYTE from issue to completion (R180). -/
theorem run_writeByte {s : State} {p : Payload} {es : List Event} (h : s.Ready ⟨0x1, p⟩)
    (hp : p.addr.toNat < 0x40000) (ha : s.agenda = List.replicate 6 .turn ++ es) :
    ∃ t, core.run 6 s = .next t ∧
      s.Completes 1 0 (s.chip.after (0x02 :: addrBytes (encodeAddr .main p.addr) ++ [p.data])) es t := by
  obtain ⟨t, hrun, hdone⟩ := run_issued_writeByte s (encodeAddr .main p.addr) p.data es
  have hissue := h.issues (d := rowWriteByte) (w := 0x02) rfl rfl (Descriptor.issueError_main rfl rfl hp _)
  rw [ha] at hissue
  exact ⟨t, run_trans hissue hrun, hdone⟩

/-- READ_BYTE from issue to completion (R182). -/
theorem run_readByte {s : State} {p : Payload} (h : s.Ready ⟨0x3, p⟩) (hp : p.addr.toNat < 0x40000)
    (ha : s.agenda = []) :
    ∃ t free c, core.run 6 s = .next t ∧ s.Completes 1
      (Chip.answer { s.chip with rx := some (0x03 :: addrBytes (encodeAddr .main p.addr)) } free) c [] t := by
  obtain ⟨t, hrun, hdone⟩ := run_issued_readByte s (encodeAddr .main p.addr) p.data
  have hissue := h.issues (d := rowReadByte) (w := 0x03) rfl rfl (Descriptor.issueError_main rfl rfl hp _)
  rw [ha] at hissue
  exact ⟨t, _, _, run_trans hissue hrun, hdone⟩

/-- Between two commands the write cycle ends (R91). -/
theorem State.Completes.writeCycleDone {s t : State} {n : Len} {r : Byte} {c : Chip} {es : List Event}
    (h : s.Completes n r c (.writeCycleDone :: es) t) :
    ∃ u, core.run 1 t = .next u ∧ s.Completes n r c.writeCycleDone es u := by
  obtain ⟨hphase, hrData, hcmd, hresponses, hlink, rfl, hbus, hagenda⟩ := h
  refine ⟨environment .writeCycleDone { t with agenda := es }, run_one (by simp only [step, hagenda]), ?_⟩
  exact ⟨hphase, hrData, hcmd, hresponses, hlink, rfl, hbus, rfl⟩

/-! ### The chip's part -/

theorem Chip.after_wren {c : Chip} (hwip : c.wip = false) :
    c.after [0x06] = { c with rx := none, sr := c.sr ||| 0x02 } := by
  rw [Chip.after, Chip.effect_wren, Chip.wip_rx, if_neg (by simp [hwip])]
  rfl

/-- One byte written to an enabled chip that is not busy and not protected (R86). -/
theorem Chip.after_write_mem {c : Chip} (hwip : c.wip = false) (hwel : c.wel = true) (hsr : c.sr &&& 0x8C = 0)
    (a : FrameAddr) (b : Byte) :
    (c.after (0x02 :: addrBytes a ++ [b])).mem = c.mem.write (mainWriteAddr a 0) b := by
  rw [Chip.after, Chip.effect_write, Chip.effectWrite, Chip.accepts_rx, Chip.accepts_unprotected hsr,
    Chip.dropFrame_effect, if_pos ⟨hwip, by simp, hwel⟩]
  rfl

/-- Setting WEL leaves WIP and the protection bits alone (R41, R85). -/
theorem wel_set (x : Byte) : (x ||| 0x02).getLsbD 1 = true ∧ (x ||| 0x02).getLsbD 0 = x.getLsbD 0 ∧
    (x ||| 0x02) &&& 0x8C = x &&& 0x8C := by
  revert x
  decide

theorem Chip.after_wren_write_mem {c : Chip} (hwip : c.wip = false) (hsr : c.sr &&& 0x8C = 0) (a : FrameAddr)
    (b : Byte) :
    ((c.after [0x06]).after (0x02 :: addrBytes a ++ [b])).mem = c.mem.write (mainWriteAddr a 0) b := by
  obtain ⟨hwel, hkeepsWip, hkeepsProtect⟩ := wel_set c.sr
  rw [Chip.after_wren hwip]
  exact Chip.after_write_mem (c := { c with rx := none, sr := c.sr ||| 0x02 }) (hkeepsWip.trans hwip) hwel (hkeepsProtect.trans hsr) a b

/-- A byte written after WREN is answered to a READ at its address once the write cycle has ended (R93). -/
theorem Chip.answer_after_write {c : Chip} (hwip : c.wip = false) (hsr : c.sr &&& 0x8C = 0) (hwf : c.mem.wf = true)
    (a : FrameAddr) (b free : Byte) :
    Chip.answer { ((c.after [0x06]).after (0x02 :: addrBytes a ++ [b])).writeCycleDone with
      rx := some (0x03 :: addrBytes a) } free = b := by
  have hread :=
    Chip.answer_read ((c.after [0x06]).after (0x02 :: addrBytes a ++ [b])).writeCycleDone_wip [] free a
  have hmem : ((c.after [0x06]).after (0x02 :: addrBytes a ++ [b])).writeCycleDone.mem =
      c.mem.write (mainWriteAddr a 0) b := by
    rw [Chip.writeCycleDone_eq]
    exact Chip.after_wren_write_mem hwip hsr a b
  rw [List.append_nil] at hread
  rw [hread, hmem, List.length_nil, mainReadAddr_eq_mainWriteAddr (Nat.mod_lt _ (by decide))]
  exact Memory.read_write_same (lo := 0) hwf _ b

/-- Settles O59: the three commands and the end of the write cycle, one after the other. -/
theorem byteWriteReadsBack : Obligations.ByteWriteReadsBack := by
  intro s a d d0 d1 n0 n1 n2 a0 ha hp hb hl hwip hsr hwf hcmd hagenda
  have hready : s.Ready ⟨0x7, ⟨a0, n0, d0⟩⟩ :=
    ⟨hp, hb, by rw [hcmd]; rfl, hl, by rw [State.blockMoves, hagenda]; rfl⟩
  obtain ⟨s1, hrun1, h1⟩ := run_setWriteEnable hready hagenda
  have hready1 : s1.Ready ⟨0x1, ⟨a, n1, d⟩⟩ := h1.ready hb (by rw [hcmd]; rfl) (Or.inr rfl)
  obtain ⟨s2, hrun2, h2⟩ := run_writeByte hready1 ha h1.agenda
  obtain ⟨s3, hrun3, h3⟩ := h2.writeCycleDone
  have hready3 : s3.Ready ⟨0x3, ⟨a, n2, d1⟩⟩ :=
    h3.ready hready1.noFrame (by rw [h1.cmd, hcmd]; rfl) (Or.inl rfl)
  obtain ⟨t, free, c, hrun4, h4⟩ := run_readByte hready3 ha h3.agenda
  have hanswer := Chip.answer_after_write hwip hsr hwf (encodeAddr .main a) d free
  rw [← h1.chip, ← h3.chip] at hanswer
  rw [hanswer] at h4
  refine ⟨t, run_trans (run_trans (run_trans hrun1 hrun2) hrun3) hrun4, h4.phase, h4.rData, ?_⟩
  rw [h4.responses, h3.responses, h1.responses]
  simp

end Sys2Proof.Machine
end

section
/-! PROOFS. The two encodings and their decoders are inverse to each other (R100, R102, R104, R105). -/

namespace Sys2Proof.Machine

/-! ### The command word -/

/-- The four fields of the packed word are its 4-tuple (R102). -/
theorem Command.ofWord_toWord (c : Command) : Command.ofWord c.toWord = c := by
  obtain ⟨op, addr, len, data⟩ := c
  simp only [Command.ofWord, Command.toWord, Command.mk.injEq, Payload.mk.injEq]
  refine ⟨?_, ?_, ?_, ?_⟩ <;> ext i hi <;> grind

/-- The four fields fill the packed word: no bit is left out (R102). -/
theorem Command.toWord_ofWord (w : BitVec Config.commandW) : (Command.ofWord w).toWord = w := by
  simp only [Command.ofWord, Command.toWord]
  ext i hi
  grind

theorem decode_commandWord (op : OpCode) (p : Payload) : decode (commandWord op p) = decodeCommand ⟨op, p⟩ :=
  congrArg decodeCommand (Command.ofWord_toWord ⟨op, p⟩)

theorem encode_of_decodeCommand {c : Command} {i : Instr} (h : decodeCommand c = .ok i) :
    i.wellFormed = true ∧ encode i = commandWord c.op c.payload := by
  obtain ⟨op, p⟩ := c
  unfold decodeCommand at h
  split at h
  case h_15 => cases h
  all_goals
    rename_i hop
    obtain ⟨-, hop'⟩ := BitVec.toNat_eq_nat.mp hop
    dsimp only at hop'
    subst hop'
    cases h
    exact ⟨rfl, rfl⟩

/-! ### The wire frame -/

theorem readStream_dummies {n : Nat} (h : Instr.lengthFits n = true) (i : Nat → Instr) :
    readStream (List.replicate n Config.dummy) i = .ok (i n) := by
  simp [readStream, allDummy, h]

theorem writeStream_fits {ds : List Byte} (h : Instr.lengthFits ds.length = true) (i : List Byte → Instr) :
    writeStream ds i = .ok (i ds) := if_pos h

theorem decodeFrame_read (a : FrameAddr) (ds : List Byte) :
    decodeFrame (0x03 :: addrBytes a ++ ds) = readStream ds (.wireRead a) :=
  congrArg (fun b => readStream ds (.wireRead b)) (addrOfBytes_addrBytes a)

theorem decodeFrame_write (a : FrameAddr) (ds : List Byte) :
    decodeFrame (0x02 :: addrBytes a ++ ds) = writeStream ds (.wireWrite a) :=
  congrArg (fun b => writeStream ds (.wireWrite b)) (addrOfBytes_addrBytes a)

/-- Settles O1, row by row: the fields of the command word, and the address and the length of the frame. -/
theorem decodeInvertsEncode : Obligations.DecodeInvertsEncode := by
  intro i hwf
  cases i with
  | init p | writeByte p | writeBuffer p | readByte p | readBuffer p | getStatus p | getWip p | setWriteEnable p
  | readIdPage p | writeIdPage p | readLockStatus p | lockId p | writeDisable p | writeStatus p =>
    exact decode_commandWord _ p
  | wireWren | wireWrdi | wireRdsr | wireWrsr | wireReadLockStatus | wireLockId => rfl
  | wireRead a n => exact (decodeFrame_read a _).trans (readStream_dummies hwf (.wireRead a))
  | wireWrite a ds => exact (decodeFrame_write a ds).trans (writeStream_fits hwf (.wireWrite a))
  | wireReadId lo n => exact readStream_dummies hwf (.wireReadId lo)
  | wireWriteId lo ds => exact writeStream_fits hwf (.wireWriteId lo)

theorem lengthFits_of_readStream {ds : List Byte} {i : Nat → Instr} {j : Instr} (h : readStream ds i = .ok j) :
    Instr.lengthFits ds.length = true := by
  unfold readStream at h
  split at h
  · cases h
  · rename_i hfits; simpa using hfits

theorem lengthFits_of_writeStream {ds : List Byte} {i : List Byte → Instr} {j : Instr}
    (h : writeStream ds i = .ok j) : Instr.lengthFits ds.length = true := by
  unfold writeStream at h
  split at h
  · assumption
  · cases h

/-- A frame that decodes is a row's own frame, its length one that L_LEN can hold (R104, R105). -/
theorem encode_of_decodeFrame {f : List Byte} {i : Instr} (h : decodeFrame f = .ok i) :
    i.wellFormed = true ∧ encode i = .frame f := by
  unfold decodeFrame at h
  split at h
  · cases h
  · rename_i op rest
    split at h
    case h_9 => cases h
    all_goals
      rename_i hop
      obtain ⟨-, rfl⟩ := BitVec.toNat_eq_nat.mp hop
    case h_1 | h_2 => obtain ⟨rfl, rfl⟩ := noData_ok h; exact ⟨rfl, rfl⟩
    case h_3 => obtain ⟨rfl, rfl⟩ := oneDummy_ok h; exact ⟨rfl, rfl⟩
    case h_4 => obtain ⟨d, rfl, rfl⟩ := oneData_ok h; exact ⟨rfl, rfl⟩
    case h_5 =>
      split at h
      · obtain ⟨rfl, hds⟩ := readStream_ok h
        exact ⟨lengthFits_of_readStream h, by simp only [encode, hds, addrBytes_addrOfBytes]; rfl⟩
      · cases h
    case h_6 =>
      split at h
      · obtain rfl := writeStream_ok h
        exact ⟨lengthFits_of_writeStream h, by simp [encode]⟩
      · cases h
    case h_7 =>
      split at h
      · split_ifs at h with hpage haddr
        · obtain ⟨rfl, hds⟩ := readStream_ok h
          exact ⟨lengthFits_of_readStream h, by simp only [encode, hds, hpage]; rfl⟩
        · obtain ⟨rfl, rfl⟩ := oneDummy_ok h
          exact ⟨rfl, by simp [encode, ← haddr]⟩
      · cases h
    case h_8 =>
      split at h
      · split_ifs at h with hpage haddr
        · obtain rfl := writeStream_ok h
          exact ⟨lengthFits_of_writeStream h, by simp [encode, hpage]⟩
        · obtain ⟨d, rfl, rfl⟩ := oneData_ok h
          exact ⟨rfl, by simp [encode, ← haddr]⟩
      · cases h

/-- Settles O2, for the two places an instruction is taken from. -/
theorem encodeInvertsDecode : Obligations.EncodeInvertsDecode := by
  intro e i h
  cases e with
  | command w =>
    obtain ⟨hwf, hword⟩ := encode_of_decodeCommand h
    exact ⟨hwf, hword.trans (congrArg Encoded.command (Command.toWord_ofWord w))⟩
  | frame bytes => exact encode_of_decodeFrame h

/-- Settles O3: fixed words, so the decoder is run on each. -/
theorem wordsOfTheSpecDecode : Obligations.WordsOfTheSpecDecode := by
  unfold Obligations.WordsOfTheSpecDecode
  decide

end Sys2Proof.Machine
end

section
/-! PROOFS. Which commands an idle block issues, and as what (R101, R103, R111 to R113, R142). -/

namespace Sys2Proof.Machine

/-! ### The issue checks -/

/-- A command passes its checks when its address is in range and it crosses no page, or none is made (R142). -/
theorem Descriptor.issueError_eq_none {d : Descriptor} {checkEn : Bool} {p : Payload}
    (hrange : checkEn = true → d.outOfRange p.addr = false) (hpage : checkEn = true → d.crossesPage p = false) :
    d.issueError checkEn p = none := by
  cases checkEn with
  | false => rfl
  | true => simp [Descriptor.issueError, hrange rfl, hpage rfl]

theorem Descriptor.outOfRange_noAddr {d : Descriptor} (hk : d.akind = .noAddr ∨ d.akind = .lock) (addr : HostAddr) :
    d.outOfRange addr = false := by
  rcases hk with hk | hk <;> simp [Descriptor.outOfRange, hk]

theorem Descriptor.outOfRange_main {d : Descriptor} (hk : d.akind = .main) {addr : HostAddr}
    (h : addr.toNat < 0x40000) : d.outOfRange addr = false := by
  simpa [Descriptor.outOfRange, hk, Config.capacity, Config.pageSize, Config.pageCount] using h

theorem Descriptor.outOfRange_id {d : Descriptor} (hk : d.akind = .id) {addr : HostAddr}
    (h : addr.toNat < 0x100) : d.outOfRange addr = false := by
  simpa [Descriptor.outOfRange, hk] using h

theorem Descriptor.crossesPage_unchecked {d : Descriptor} (h : d.pageCheck = false) (p : Payload) :
    d.crossesPage p = false := by
  simp [Descriptor.crossesPage, h]

theorem Descriptor.crossesPage_inside {d : Descriptor} {p : Payload} (hn : d.nlen = .cmdLen)
    (h : (p.addr.extractLsb' 0 8).toNat + p.len.toNat ≤ 256) : d.crossesPage p = false := by
  have hlen : d.length p.len = p.len := by simp [Descriptor.length, hn]
  simp only [Descriptor.crossesPage, hlen, Bool.and_eq_false_imp, decide_eq_false_iff_not, not_lt]
  exact fun _ => h

/-! ### The commands of each group -/

/-- A framed command that passes its checks is issued by an idle block (R142). -/
theorem Descriptor.execute_issued {op : OpCode} {d : Descriptor} {w : Byte} {p : Payload} {s : State}
    (hd : descriptor op = some d) (hw : d.wop = some w) (hp : s.phase = .idle)
    (hrange : s.cfg.checkEn = true → d.outOfRange p.addr = false)
    (hpage : s.cfg.checkEn = true → d.crossesPage p = false) :
    d.execute p s = .next (s.issued op (encodeAddr d.akind p.addr) (d.length p.len) p.data) := by
  rw [Descriptor.execute, if_pos hp, Descriptor.issue_eq_issued hd hw (Descriptor.issueError_eq_none hrange hpage)]

/-- A command without an operand to check is issued whatever the operands are. -/
theorem Descriptor.execute_issued_unchecked {op : OpCode} {d : Descriptor} {w : Byte} {s : State}
    (hd : descriptor op = some d) (hw : d.wop = some w) (hp : s.phase = .idle)
    (hk : d.akind = .noAddr ∨ d.akind = .lock) (hpage : d.pageCheck = false) (p : Payload) :
    d.execute p s = .next (s.issued op (encodeAddr d.akind p.addr) (d.length p.len) p.data) :=
  Descriptor.execute_issued hd hw hp (fun _ => Descriptor.outOfRange_noAddr hk p.addr)
    (fun _ => Descriptor.crossesPage_unchecked hpage p)

/-- Settles O7: the range check of each, and the page check of WRITE_BUFFER. -/
theorem mainArrayCommandsAreIssued : Obligations.MainArrayCommandsAreIssued := by
  intro p s hp haddr
  have hrange {d : Descriptor} (hk : d.akind = .main) (h : s.cfg.checkEn = true) : d.outOfRange p.addr = false :=
    Descriptor.outOfRange_main hk (haddr h)
  have hfree {d : Descriptor} (h : d.pageCheck = false) (_ : s.cfg.checkEn = true) : d.crossesPage p = false :=
    Descriptor.crossesPage_unchecked h p
  refine ⟨?_, ?_, ?_, fun hpage => ?_⟩
  · exact Descriptor.execute_issued (d := rowWriteByte) rfl rfl hp (hrange rfl) (hfree rfl)
  · exact Descriptor.execute_issued (d := rowReadByte) rfl rfl hp (hrange rfl) (hfree rfl)
  · exact Descriptor.execute_issued (d := rowReadBuffer) rfl rfl hp (hrange rfl) (hfree rfl)
  · exact Descriptor.execute_issued (d := rowWriteBuffer) rfl rfl hp (hrange rfl)
      (fun h => Descriptor.crossesPage_inside rfl (hpage h))

/-- Settles O9: the lock commands have no operand to check; of the ID-page commands both check the range and
WRITE_ID_PAGE the page. -/
theorem idAndLockCommandsAreIssued : Obligations.IdAndLockCommandsAreIssued := by
  intro p s hp
  refine ⟨?_, ?_, fun haddr => ?_, fun hchecks => ?_⟩
  · exact Descriptor.execute_issued_unchecked (d := rowReadLockStatus) rfl rfl hp (Or.inr rfl) rfl p
  · exact Descriptor.execute_issued_unchecked (d := rowLockId) rfl rfl hp (Or.inr rfl) rfl p
  · exact Descriptor.execute_issued (d := rowReadIdPage) rfl rfl hp
      (fun h => Descriptor.outOfRange_id rfl (haddr h)) (fun _ => Descriptor.crossesPage_unchecked rfl p)
  · exact Descriptor.execute_issued (d := rowWriteIdPage) rfl rfl hp
      (fun h => Descriptor.outOfRange_id rfl (hchecks h).1)
      (fun h => Descriptor.crossesPage_inside rfl (hchecks h).2)

/-- Settles O8: none of the five has an address or a page to check. -/
theorem statusCommandsAreIssued : Obligations.StatusCommandsAreIssued := by
  intro p s hp
  refine ⟨?_, ?_, ?_, ?_, ?_⟩
  · exact Descriptor.execute_issued_unchecked (d := rowGetStatus) rfl rfl hp (Or.inl rfl) rfl p
  · exact Descriptor.execute_issued_unchecked (d := rowGetWip) rfl rfl hp (Or.inl rfl) rfl p
  · exact Descriptor.execute_issued_unchecked (d := rowSetWriteEnable) rfl rfl hp (Or.inl rfl) rfl p
  · exact Descriptor.execute_issued_unchecked (d := rowWriteDisable) rfl rfl hp (Or.inl rfl) rfl p
  · exact Descriptor.execute_issued_unchecked (d := rowWriteStatus) rfl rfl hp (Or.inl rfl) rfl p

end Sys2Proof.Machine
end

section
/-! PROOFS. The data steps: the last one of the one-byte commands, and each one of the read streams (R116, R117,
R148). -/

namespace Sys2Proof.Machine

/-- A data step on a transport that answers: the byte received is consumed and counted, and the last one ends the
frame (R148). -/
theorem Descriptor.advance_data {d : Descriptor} {s : State} {out : Byte} {a : Answer} {as : List Answer}
    (hd : descriptor s.lOp = some d) (hp : s.phase = .data) (hout : d.dataOut s = some out)
    (hl : s.link = .scripted (a :: as)) (hgood : a.fail = false) :
    d.advance s = .next
      (let t : State := { d.dataIn a.inp ((d.noteBufRead s).exchanged out a as false) with idx := s.idx + 1 }
       if s.idx + 1 = s.lLen then t.ended else t) := by
  have htOut : s.tOut = some out := by simpa [State.tOut, hd, hp] using hout
  have hnoted : d.noted s = d.noteBufRead s := if_pos hp
  have hphase : ((d.noteBufRead s).exchanged out a as false).phase = .data := (d.noteBufRead_phase s).trans hp
  have htaken : d.taken a.inp ((d.noteBufRead s).exchanged out a as false) =
      { d.dataIn a.inp ((d.noteBufRead s).exchanged out a as false) with idx := s.idx + 1 } := by
    rw [Descriptor.taken, if_pos hphase]
    simp [State.exchanged]
  rw [Descriptor.advance_answered hd htOut hl hgood, hnoted, htaken, Descriptor.proceed_data d (by simpa using hphase),
    State.finish_detached (by simp [State.exchanged, Link.attached])]
  simp [State.exchanged]

theorem wipFlag_eq_bit0 (b : Byte) : wipFlag b = b.getLsbD 0 := by
  revert b; decide

/-- The one data step of a one-byte command ends its frame. -/
theorem Descriptor.execute_onlyByte {d : Descriptor} {s : State} {out : Byte} {a : Answer} {as : List Answer}
    (hd : descriptor s.lOp = some d) (hp : s.phase = .data) (hi : s.idx = 0) (hn : s.lLen = 1)
    (hout : d.dataOut s = some out) (hl : s.link = .scripted (a :: as)) (hgood : a.fail = false) (p : Payload) :
    d.execute p s = .next
      ({ d.dataIn a.inp ((d.noteBufRead s).exchanged out a as false) with idx := 1 } : State).ended := by
  rw [Descriptor.execute_busy (by simp [hp]) (descriptor_op hd).symm,
    Descriptor.advance_data hd hp hout hl hgood, hi, hn]
  rfl

/-- Settles O18: for each of the four the sink of its row. -/
theorem oneByteReadsComplete : Obligations.OneByteReadsComplete := by
  intro p s a as hp hi hn hl hgood
  refine ⟨fun hop => ?_, fun hop => ?_, fun hop => ?_, fun hop => ?_⟩
  · exact Descriptor.execute_onlyByte (d := rowReadByte) (by rw [hop]; rfl) hp hi hn rfl hl hgood p
  · exact Descriptor.execute_onlyByte (d := rowGetStatus) (by rw [hop]; rfl) hp hi hn rfl hl hgood p
  · rw [← wipFlag_eq_bit0]
    exact Descriptor.execute_onlyByte (d := rowGetWip) (by rw [hop]; rfl) hp hi hn rfl hl hgood p
  · exact Descriptor.execute_onlyByte (d := rowReadLockStatus) (by rw [hop]; rfl) hp hi hn rfl hl hgood p

/-- Settles O19: for each of the three the source of its row. -/
theorem oneByteWritesComplete : Obligations.OneByteWritesComplete := by
  intro p s a as hp hi hn hl hgood
  refine ⟨fun hop => ?_, fun hop => ?_, fun hop => ?_⟩
  · exact Descriptor.execute_onlyByte (d := rowWriteByte) (by rw [hop]; rfl) hp hi hn rfl hl hgood p
  · exact Descriptor.execute_onlyByte (d := rowWriteStatus) (by rw [hop]; rfl) hp hi hn rfl hl hgood p
  · exact Descriptor.execute_onlyByte (d := rowLockId) (by rw [hop]; rfl) hp hi hn rfl hl hgood p

/-- The data step of a row that reads into BUF, on a transport that answers (R117). -/
theorem Descriptor.advance_bufferRead {d : Descriptor} {s : State} {a : Answer} {as : List Answer}
    (hd : descriptor s.lOp = some d) (hdir : d.dir = .read) (hsink : d.sink = .buf) (hp : s.phase = .data)
    (hl : s.link = .scripted (a :: as)) (hgood : a.fail = false) :
    d.advance s = .next
      (let t : State :=
        { s.exchanged 0x00 a as false with
          idx := s.idx + 1
          buf := s.buf.write s.idx.toNat a.inp
          bufLog := s.bufLog ++ [.write s.idx a.inp] }
       if s.idx + 1 = s.lLen then t.ended else t) := by
  have hout : d.dataOut s = some Config.dummy := by simp [Descriptor.dataOut, hdir]
  have hnote : d.noteBufRead s = s := by simp [Descriptor.noteBufRead, hdir]
  rw [Descriptor.advance_data hd hp hout hl hgood, hnote]
  simp [Descriptor.dataIn, Descriptor.storeIndex, Descriptor.latchesRData, Descriptor.latchesRFlag, hdir, hsink,
    State.bufWrite, State.exchanged]

/-- Settles O20: the two commands that read into BUF take the same data step. -/
theorem bufferReadsStoreEachByte : Obligations.BufferReadsStoreEachByte := by
  intro p s a as i hp hl hgood hi
  have hbusy : s.phase ≠ .idle := by simp [hp]
  rcases hi with ⟨rfl, hop⟩ | ⟨rfl, hop⟩
  · exact (Descriptor.execute_busy (d := rowReadBuffer) hbusy hop p).trans
      (Descriptor.advance_bufferRead (by rw [hop]; rfl) rfl rfl hp hl hgood)
  · exact (Descriptor.execute_busy (d := rowReadIdPage) hbusy hop p).trans
      (Descriptor.advance_bufferRead (by rw [hop]; rfl) rfl rfl hp hl hgood)

end Sys2Proof.Machine
end

section
/-! PROOFS. A whole command on any transport that answers and does not fail (R106, R152, R154, R158): from a position in
its open frame the block sends what is left of the frame, one byte a step, and completes. -/

namespace Sys2Proof.Machine

/-! ### A transport that answers -/

/-- The transport answers the next `n` exchanges, and none of the answers is a failure. -/
def Link.Answers : Link → Nat → Prop
  | .scripted answers, n => n ≤ answers.length ∧ ∀ a ∈ answers.take n, a.fail = false
  | .responder fails, _ => fails = []

/-- A list of answers that has given the bytes `ins` is left as `l`; of the responder, whose answers are the chip's,
nothing is said. -/
def Link.Gave : Link → List Byte → Link → Prop
  | .scripted answers, ins, l =>
    ∃ given more, answers = given ++ more ∧ ins = given.map Answer.inp ∧ l = .scripted more
  | .responder _, _, _ => True

theorem Link.gave_nil (l : Link) : l.Gave [] l := by
  cases l with
  | scripted answers => exact ⟨[], answers, rfl, rfl, rfl⟩
  | responder => trivial

/-- One good answer is taken from the transport (R38, R82). -/
theorem State.xchg_answers {s : State} {n : Nat} (h : s.link.Answers (n + 1)) (out : Byte) :
    ∃ x, s.xchg out = some x ∧ x.fail = false ∧ x.after.link.Answers n ∧
      ∀ ins l, x.after.link.Gave ins l → s.link.Gave (x.inp :: ins) l := by
  cases hl : s.link with
  | scripted answers =>
    rw [hl] at h
    obtain ⟨hlen, hgood⟩ := h
    cases answers with
    | nil => simp at hlen
    | cons a as =>
      simp only [List.take_succ_cons, List.mem_cons, forall_eq_or_imp] at hgood
      refine ⟨_, State.xchg_scripted hl out, by simp [hgood.1], ⟨by simpa using hlen, hgood.2⟩, ?_⟩
      rintro ins l ⟨given, more, rfl, rfl, rfl⟩
      exact ⟨a :: given, more, rfl, rfl, rfl⟩
  | responder fails =>
    rw [hl] at h
    obtain rfl : fails = [] := h
    exact ⟨_, State.xchg_responder hl out, rfl, rfl, fun _ _ _ => trivial⟩

/-! ### What is left to send -/

/-- The header bytes still to be sent from PHASE on (R104, R156). -/
def Descriptor.headerFrom (d : Descriptor) (w : Byte) (a : FrameAddr) : Phase → List Byte
  | .idle => []
  | .tinit => []
  | .opc => d.header w a
  | .ahi => addrBytes a
  | .amid => [addrMid a, addrLo a]
  | .alo => [addrLo a]
  | .data => []

/-- The bytes of the header still to be sent. -/
def Descriptor.headerLeft (d : Descriptor) (w : Byte) (s : State) : List Byte := d.headerFrom w s.faddr s.phase

/-- The data bytes still to be sent while nothing changes BUF (R116). -/
def Descriptor.dataLeft (d : Descriptor) (s : State) : List Byte :=
  (d.dataSent s.latched.payload s.buf).drop s.idx.toNat

/-- What is left of the frame. -/
def Descriptor.toSend (d : Descriptor) (w : Byte) (s : State) : List Byte := d.headerLeft w s ++ d.dataLeft s

theorem Descriptor.length_of_lengthFits {d : Descriptor} {n : Len} (h : d.lengthFits n = true) : d.length n = n := by
  cases hn : d.nlen <;> simp_all [Descriptor.length, Descriptor.lengthFits]

theorem Descriptor.dataSent_length {op : OpCode} {d : Descriptor} (hd : descriptor op = some d) (p : Payload)
    (buf : Memory) : (d.dataSent p buf).length = (d.length p.len).toNat := by
  cases hdir : d.dir with
  | noData => simp [Descriptor.dataSent, Descriptor.length, hdir, descriptor_noData_length op d hd hdir]
  | read => simp [Descriptor.dataSent, hdir]
  | write =>
    have hsrc := descriptor_write_src op d hd hdir
    cases h : d.src <;> simp_all [Descriptor.dataSent]

/-- The byte a data step presents is byte IDX of the data phase (R116). -/
theorem Descriptor.dataSent_getElem? {d : Descriptor} {s : State} {out : Byte} (hl : d.lengthFits s.lLen = true)
    (hlt : s.idx < s.lLen) (hout : d.dataOut s = some out) :
    (d.dataSent s.latched.payload s.buf)[s.idx.toNat]? = some out := by
  have hlen : d.length s.latched.payload.len = s.lLen := Descriptor.length_of_lengthFits hl
  have hnat : s.idx.toNat < s.lLen.toNat := hlt
  unfold Descriptor.dataOut at hout
  unfold Descriptor.dataSent
  rw [hlen]
  cases hdir : d.dir <;> simp only [hdir] at hout ⊢
  case noData => cases hout
  case read => cases hout; simp [hnat]
  case write =>
    cases hsrc : d.src <;> simp only [hsrc] at hout ⊢ <;> cases hout
    case lData | const => simp [hnat, State.latched]
    case buf => simp [hnat, State.bufAt]

/-- What a data phase sends does not change under its own steps: a row that sends BUF does not write it (R116, R117). -/
theorem Descriptor.dataSent_taken (d : Descriptor) (p : Payload) (inp : Byte) (u : State) :
    d.dataSent p (d.taken inp u).buf = d.dataSent p u.buf := by
  by_cases hdir : d.dir = .read
  · simp [Descriptor.dataSent, hdir]
  · by_cases hp : u.phase = .data
    · rw [Descriptor.taken_of_not_read hdir inp hp]
    · rw [Descriptor.taken, if_neg hp]

section
variable (d : Descriptor) (v : State)

@[simp] theorem Descriptor.proceed_idx : (d.proceed v).idx = v.idx := by
  unfold Descriptor.proceed; split <;> rfl
@[simp] theorem Descriptor.proceed_faddr : (d.proceed v).faddr = v.faddr := by
  unfold Descriptor.proceed; split <;> rfl
@[simp] theorem Descriptor.proceed_buf : (d.proceed v).buf = v.buf := by
  unfold Descriptor.proceed; split <;> rfl
@[simp] theorem Descriptor.proceed_latched : (d.proceed v).latched = v.latched := by
  unfold Descriptor.proceed; split <;> rfl
@[simp] theorem Descriptor.proceed_phase : (d.proceed v).phase = (d.nextPhase v).getD .idle := by
  unfold Descriptor.proceed; split <;> simp [*]

/-- Each step of the header leaves one byte less of it (R145 to R147). -/
theorem Descriptor.headerFrom_nextPhase (w : Byte) :
    d.headerFrom w v.faddr ((d.nextPhase v).getD .idle) = (d.headerFrom w v.faddr v.phase).tail := by
  unfold Descriptor.nextPhase
  cases hp : v.phase <;> dsimp only
  case idle | tinit | ahi | amid => rfl
  case opc =>
    by_cases hk : d.akind = .noAddr
    · have hheader : d.headerFrom w v.faddr .opc = [w] := if_pos hk
      rw [hheader, if_neg (not_not.mpr hk)]
      split <;> rfl
    · have hheader : d.headerFrom w v.faddr .opc = w :: addrBytes v.faddr := if_neg hk
      rw [hheader, if_pos hk]
      rfl
  case alo | data => split <;> rfl

end

section
variable {d : Descriptor} {s u : State} {w out inp : Byte}

/-- The byte presented is the first of what is left (R38). -/
theorem Descriptor.toSend_head? (hd : descriptor s.lOp = some d) (hw : d.wop = some w)
    (hl : d.lengthFits s.lLen = true) (hlt : s.phase = .data → s.idx < s.lLen) (hout : s.tOut = some out) :
    (d.toSend w s).head? = some out := by
  unfold State.tOut at hout
  unfold Descriptor.toSend Descriptor.headerLeft Descriptor.headerFrom
  simp only [hd] at hout
  cases hp : s.phase <;> simp only [hp] at hout ⊢
  case idle | tinit => cases hout
  case opc =>
    obtain rfl := Option.some.inj (hw.symm.trans hout)
    rw [Descriptor.header]
    split <;> rfl
  case ahi | amid | alo => cases hout; rfl
  case data =>
    rw [List.nil_append, Descriptor.dataLeft, List.head?_drop]
    exact Descriptor.dataSent_getElem? hl (hlt hp) hout

theorem Descriptor.headerLeft_proceed (hx : s.ExchangesTo out inp false u) :
    d.headerLeft w (d.proceed (d.taken inp u)) = (d.headerLeft w s).tail := by
  have h := d.headerFrom_nextPhase (d.taken inp u) w
  rw [d.taken_faddr, d.taken_phase, hx.faddr, hx.phase] at h
  rw [Descriptor.headerLeft, d.proceed_faddr, d.proceed_phase, d.taken_faddr, hx.faddr]
  exact h

theorem Descriptor.dataLeft_proceed (hx : s.ExchangesTo out inp false u)
    (hlt : s.phase = .data → s.idx < s.lLen) :
    d.dataLeft (d.proceed (d.taken inp u)) = if s.phase = .data then (d.dataLeft s).tail else d.dataLeft s := by
  have hlatched : (d.taken inp u).latched = s.latched := by simp [State.latched, hx.lOp, hx.faddr, hx.lLen, hx.lData]
  unfold Descriptor.dataLeft
  rw [d.proceed_latched, hlatched, d.proceed_buf, d.dataSent_taken, hx.buf, d.proceed_idx, d.taken_idx, hx.phase,
    hx.idx]
  split
  · rename_i hp
    rw [List.tail_drop, Len.toNat_add_one (hlt hp)]
  · rfl

theorem Descriptor.headerLeft_ne_nil (hf : s.frameActive = true) (hp : s.phase ≠ .data) :
    d.headerLeft w s ≠ [] := by
  cases h : s.phase <;> simp only [Descriptor.headerLeft, Descriptor.headerFrom, h]
  case idle | tinit => simp [State.frameActive, Phase.inFrame, h] at hf
  case data => exact absurd h hp
  case opc => rw [Descriptor.header]; split <;> exact List.cons_ne_nil _ _
  case ahi | amid | alo => exact List.cons_ne_nil _ _

/-- A good step leaves the rest of the frame to be sent (R145 to R148). -/
theorem Descriptor.toSend_proceed (hf : s.frameActive = true) (hx : s.ExchangesTo out inp false u)
    (hlt : s.phase = .data → s.idx < s.lLen) :
    d.toSend w (d.proceed (d.taken inp u)) = (d.toSend w s).tail := by
  unfold Descriptor.toSend
  rw [Descriptor.headerLeft_proceed hx, Descriptor.dataLeft_proceed hx hlt]
  by_cases hp : s.phase = .data
  · have hheader : d.headerLeft w s = [] := by rw [Descriptor.headerLeft, hp]; rfl
    rw [if_pos hp, hheader]
    rfl
  · rw [if_neg hp, List.tail_append_of_ne_nil (Descriptor.headerLeft_ne_nil hf hp)]

/-- Where the frame ends, L_LEN bytes have been counted (R145, R147, R148). -/
theorem Descriptor.idx_of_nextPhase_none {d : Descriptor} {v : State} (hf : v.frameActive = true)
    (hidx : v.phase ≠ .data → v.idx = 0) (h : d.nextPhase v = none) : v.idx = v.lLen := by
  unfold Descriptor.nextPhase at h
  cases hp : v.phase <;> simp only [hp] at h hidx
  case idle | tinit => simp [State.frameActive, Phase.inFrame, hp] at hf
  case ahi | amid => cases h
  case opc =>
    split_ifs at h with _ hn
    rw [hidx nofun, hn]
  case alo =>
    split_ifs at h with hn
    rw [hidx nofun, hn]
  case data =>
    split_ifs at h with hn
    exact hn

theorem Descriptor.toSend_finish {d : Descriptor} {v : State} (w : Byte) (hd : descriptor v.lOp = some d)
    (hl : d.lengthFits v.lLen = true) (hi : v.idx = v.lLen) : d.toSend w v.finish = [] := by
  have hlen : d.length v.latched.payload.len = v.lLen := Descriptor.length_of_lengthFits hl
  refine List.drop_eq_nil_of_le ?_
  rw [Descriptor.dataSent_length hd, State.finish_idx, hi]
  exact le_of_eq (congrArg BitVec.toNat hlen)

end

/-! ### What is done with the bytes received -/

/-- BUF after a data phase has received `ins` from IDX = `i` on (R117). -/
def Descriptor.stored (d : Descriptor) (buf : Memory) (i : Nat) (ins : List Byte) : Memory :=
  if d.dir = .read then
    match d.sink with
    | .buf => buf.writeRun id i ins
    | .bufZeroAndRData => buf.writeRun (fun _ => 0) i ins
    | .rData => buf
    | .rDataAndFlag => buf
    | .noSink => buf
  else buf

/-- R_DATA, R_FLAG and BUF after a data phase has received `ins` from the position of `s` on (R27, R28, R117). -/
def Descriptor.sunk (d : Descriptor) (s : State) (ins : List Byte) : Byte × Bool × Memory :=
  (if d.latchesRData then ins.getLast?.getD s.rData else s.rData,
   if d.latchesRFlag then (ins.getLast?.map wipFlag).getD s.rFlag else s.rFlag,
   d.stored s.buf s.idx.toNat ins)

theorem Descriptor.sunk_nil (d : Descriptor) (s : State) : d.sunk s [] = (s.rData, s.rFlag, s.buf) := by
  have hbuf : d.stored s.buf s.idx.toNat [] = s.buf := by
    unfold Descriptor.stored
    split
    · split <;> rfl
    · rfl
  simp [Descriptor.sunk, hbuf]

/-- The sinks look at four fields only. -/
theorem Descriptor.sunk_congr (d : Descriptor) {s t : State} (hi : t.idx = s.idx) (hd : t.rData = s.rData)
    (hf : t.rFlag = s.rFlag) (hb : t.buf = s.buf) (ins : List Byte) : d.sunk t ins = d.sunk s ins := by
  simp only [Descriptor.sunk, hi, hd, hf, hb]

/-- The byte a data step takes goes to the sinks before those of the later steps (R148). -/
theorem Descriptor.sunk_taken (d : Descriptor) {inp : Byte} {u : State} (hp : u.phase = .data)
    (hlt : u.idx < u.lLen) (ins : List Byte) : d.sunk (d.taken inp u) ins = d.sunk u (inp :: ins) := by
  have hbuf : (d.taken inp u).buf = (d.dataIn inp u).buf := by rw [Descriptor.taken, if_pos hp]
  have hrdata : (d.taken inp u).rData = (d.dataIn inp u).rData := by rw [Descriptor.taken, if_pos hp]
  have hrflag : (d.taken inp u).rFlag = (d.dataIn inp u).rFlag := by rw [Descriptor.taken, if_pos hp]
  have hstored : d.stored (d.taken inp u).buf (d.taken inp u).idx.toNat ins =
      d.stored u.buf u.idx.toNat (inp :: ins) := by
    rw [hbuf, d.taken_idx, if_pos hp, Len.toNat_add_one hlt, d.dataIn_buf]
    unfold Descriptor.stored Descriptor.storeIndex
    by_cases hdir : d.dir = .read
    · cases hsink : d.sink <;> simp [hdir, Memory.writeRun]
    · simp [hdir]
  simp only [Descriptor.sunk, hstored, hrdata, hrflag, d.dataIn_rData, d.dataIn_rFlag, List.getLast?_cons,
    Option.map_some, Option.getD_some, ← Option.getD_map wipFlag]
  split_ifs <;> rfl

/-! ### The rest of a frame -/

/-- The bytes received that belong to the data phase, of those received from the position of `s` on. -/
def Descriptor.dataOf (d : Descriptor) (w : Byte) (s : State) (ins : List Byte) : List Byte :=
  ins.drop (d.headerLeft w s).length

/-- From `s`, in its open frame, the command has sent what was left of the frame against the bytes `ins`, and has
completed in `t` without an error (R148, R150, R152, R154). -/
structure Descriptor.Finishes (d : Descriptor) (w : Byte) (s : State) (ins : List Byte) (t : State) : Prop where
  trace : t.trace = s.trace ++ List.zipWith (fun out inp => .xchg out inp false) (d.toSend w s) ins ++ [.frameEnd]
  phase : t.phase = .idle
  idx : t.idx = s.lLen
  rErr : t.rErr = .noError
  cmd : t.cmd = s.cmd
  link : s.link.Gave ins t.link
  responses : t.responses = s.responses ++ [⟨t.idx, t.rData, t.rFlag, .noError⟩]
  sinks : (t.rData, t.rFlag, t.buf) = d.sunk s (d.dataOf w s ins)

/-- A framed command at its position, at the block's turn, before a transport that answers `n` exchanges. -/
structure Descriptor.Open (d : Descriptor) (w : Byte) (s : State) (n : Nat) : Prop where
  row : descriptor s.lOp = some d
  wop : d.wop = some w
  frame : s.frameActive = true
  positioned : s.positioned = true
  turn : s.agenda = []
  answers : s.link.Answers n

section
variable {d : Descriptor} {w : Byte} {s : State} {n : Nat}

theorem Descriptor.Open.fits (h : d.Open w s n) : d.positionFits s = true :=
  State.positioned_fits h.positioned h.frame h.row

theorem Descriptor.Open.inData (h : d.Open w s n) (hp : s.phase = .data) : s.idx < s.lLen :=
  Descriptor.positionFits_data h.fits hp

theorem Descriptor.Open.presents (h : d.Open w s n) : ∃ out, s.tOut = some out := by
  obtain ⟨t, ht⟩ := Descriptor.advance_goesOn h.row h.positioned
  exact Descriptor.tOut_of_advance h.row h.frame ht

theorem Descriptor.Open.head? (h : d.Open w s n) {out : Byte} (hout : s.tOut = some out) :
    (d.toSend w s).head? = some out :=
  Descriptor.toSend_head? h.row h.wop (Descriptor.positionFits_length h.fits) h.inData hout

/-- One step of the frame: a byte is exchanged, taken, and the frame goes on or ends. -/
theorem Descriptor.Open.steps (h : d.Open w s (n + 1)) :
    ∃ out inp u, (d.toSend w s).head? = some out ∧ s.ExchangesTo out inp false u ∧ u.link.Answers n ∧
      (∀ ins l, u.link.Gave ins l → s.link.Gave (inp :: ins) l) ∧ step s = .next (d.proceed (d.taken inp u)) := by
  obtain ⟨out, hout⟩ := h.presents
  obtain ⟨x, hx, hgood, hanswers, hgave⟩ :=
    State.xchg_answers (s := d.noted s) (by rw [d.noted_link]; exact h.answers) out
  rw [d.noted_link] at hgave
  have hxt : s.ExchangesTo out x.inp x.fail x.after := by
    unfold Descriptor.noted at hx
    split at hx
    · exact State.exchangesTo_of_noted hx
    · exact State.exchangesTo_of_xchg hx
  rw [hgood] at hxt
  refine ⟨out, x.inp, x.after, h.head? hout, hxt, hanswers, hgave, ?_⟩
  rw [step_turn h.turn, move_busy (State.busy_of_frameActive h.frame) h.row, Descriptor.advance_of_xchg h.row hout hx,
    Descriptor.afterExchange, hgood]
  rfl

/-- The sinks after a step and the rest of the frame: the byte of a data step first, that of another step nowhere. -/
theorem Descriptor.Open.sunk_proceed (h : d.Open w s n) {out inp : Byte} {u : State}
    (hx : s.ExchangesTo out inp false u) (ins : List Byte) :
    d.sunk (d.taken inp u) (d.dataOf w (d.proceed (d.taken inp u)) ins) = d.sunk s (d.dataOf w s (inp :: ins)) := by
  unfold Descriptor.dataOf
  rw [Descriptor.headerLeft_proceed hx]
  have hsame := d.sunk_congr hx.idx hx.rData hx.rFlag hx.buf
  by_cases hp : s.phase = .data
  · have hheader : d.headerLeft w s = [] := by rw [Descriptor.headerLeft, hp]; rfl
    rw [hheader, List.tail_nil, List.length_nil, List.drop_zero, List.drop_zero,
      d.sunk_taken (hx.phase.trans hp) (by rw [hx.idx, hx.lLen]; exact h.inData hp), hsame]
  · have hne : d.headerLeft w s ≠ [] := Descriptor.headerLeft_ne_nil h.frame hp
    obtain ⟨b, bs, hheader⟩ := List.exists_cons_of_ne_nil hne
    rw [hheader, List.tail_cons, List.length_cons, List.drop_succ_cons, Descriptor.taken, if_neg (by rwa [hx.phase]),
      hsame]

/-- A step that ends the frame has counted all of L_LEN, and nothing is left to send. -/
theorem Descriptor.Open.ends (h : d.Open w s n) {out inp : Byte} {u : State} (hx : s.ExchangesTo out inp false u)
    (hq : d.nextPhase (d.taken inp u) = none) :
    (d.taken inp u).idx = s.lLen ∧ d.toSend w (d.taken inp u).finish = [] := by
  have hlLen : (d.taken inp u).lLen = s.lLen := (d.taken_lLen inp u).trans hx.lLen
  have hidx : (d.taken inp u).idx = (d.taken inp u).lLen := by
    refine Descriptor.idx_of_nextPhase_none ?_ ?_ hq
    · rw [State.frameActive, d.taken_phase, hx.phase]; exact h.frame
    · intro hp
      rw [d.taken_phase, hx.phase] at hp
      rw [d.taken_idx, hx.phase, if_neg hp, hx.idx]
      exact Descriptor.positionFits_idx h.fits h.frame hp
  have hrow : descriptor (d.taken inp u).lOp = some d := by simpa [hx.lOp] using h.row
  exact ⟨hidx.trans hlLen,
    Descriptor.toSend_finish w hrow (hlLen ▸ Descriptor.positionFits_length h.fits) hidx⟩

/-- A step that ends the frame completes the command. -/
theorem Descriptor.Open.finishes_of_ends (h : d.Open w s n) {out inp : Byte} {u : State}
    (hx : s.ExchangesTo out inp false u) (hsend : d.toSend w s = [out])
    (hgave : ∀ ins l, u.link.Gave ins l → s.link.Gave (inp :: ins) l) (hidx : (d.taken inp u).idx = s.lLen) :
    d.Finishes w s [inp] (d.taken inp u).finish where
  trace := by simp [hx.trace, hsend]
  phase := rfl
  idx := hidx
  rErr := by simpa [hx.rErr] using State.positioned_noError h.positioned (State.busy_of_frameActive h.frame)
  cmd := by simp [hx.cmd]
  link := hgave [] _ (by simpa using u.link.gave_nil)
  responses := by
    simp [hx.responses, hx.rErr, State.positioned_noError h.positioned (State.busy_of_frameActive h.frame)]
  sinks := by
    have hsunk := h.sunk_proceed hx []
    rw [show d.dataOf w (d.proceed (d.taken inp u)) [] = [] from List.drop_nil, d.sunk_nil] at hsunk
    exact hsunk

/-- What the frame sends after a step, it sends from `s` after that step's byte. -/
theorem Descriptor.Open.finishes_of_goesOn (h : d.Open w s n) {out inp : Byte} {u t : State} {ins : List Byte}
    {q : Phase} (hx : s.ExchangesTo out inp false u) (hq : d.nextPhase (d.taken inp u) = some q)
    (hsend : d.toSend w s = out :: d.toSend w { d.taken inp u with phase := q })
    (hgave : ∀ ins l, u.link.Gave ins l → s.link.Gave (inp :: ins) l)
    (ht : d.Finishes w { d.taken inp u with phase := q } ins t) : d.Finishes w s (inp :: ins) t where
  trace := by simp [ht.trace, hx.trace, hsend]
  phase := ht.phase
  idx := by simp [ht.idx, hx.lLen]
  rErr := ht.rErr
  cmd := by simp [ht.cmd, hx.cmd]
  link := hgave ins _ (by simpa using ht.link)
  responses := by simp [ht.responses, hx.responses]
  sinks := by
    have hgoes : d.proceed (d.taken inp u) = { d.taken inp u with phase := q } := by rw [Descriptor.proceed, hq]
    have hsunk := h.sunk_proceed hx ins
    rw [hgoes] at hsunk
    exact ht.sinks.trans hsunk

end

/-- A command in its open frame sends what is left of the frame, one byte a step, and completes (R106, R152, R158). -/
theorem Descriptor.Open.run {d : Descriptor} {w : Byte} {n : Nat} {s : State} (h : d.Open w s n)
    (hn : (d.toSend w s).length = n) :
    ∃ ins t, ins.length = n ∧ core.run n s = .next t ∧ d.Finishes w s ins t := by
  induction n generalizing s with
  | zero =>
    obtain ⟨out, hout⟩ := h.presents
    have hhead := h.head? hout
    rw [List.eq_nil_of_length_eq_zero hn] at hhead
    cases hhead
  | succ n ih =>
    obtain ⟨out, inp, u, hhead, hx, hanswers, hgave, hstep⟩ := h.steps
    have hsend : d.toSend w s = out :: d.toSend w (d.proceed (d.taken inp u)) := by
      rw [Descriptor.toSend_proceed h.frame hx h.inData]
      exact List.eq_cons_of_mem_head? hhead
    have hlen : (d.toSend w (d.proceed (d.taken inp u))).length = n := by simpa [hsend] using hn
    cases hq : d.nextPhase (d.taken inp u) with
    | none =>
      have hends : d.proceed (d.taken inp u) = (d.taken inp u).finish := by rw [Descriptor.proceed, hq]
      obtain ⟨hidx, hnil⟩ := h.ends hx hq
      rw [hends, hnil] at hlen hsend
      rw [hends] at hstep
      subst hlen
      exact ⟨[inp], _, rfl, run_one hstep, h.finishes_of_ends hx hsend hgave hidx⟩
    | some q =>
      have hgoes : d.proceed (d.taken inp u) = { d.taken inp u with phase := q } := by rw [Descriptor.proceed, hq]
      rw [hgoes] at hlen hsend hstep
      have hopen : d.Open w { d.taken inp u with phase := q } n :=
        { row := by simpa [hx.lOp] using h.row
          wop := h.wop
          frame := Descriptor.nextPhase_inFrame hq
          positioned := stepKeepsPositioned s _ h.positioned hstep
          turn := by simpa [hx.agenda] using h.turn
          answers := by simpa using hanswers }
      obtain ⟨ins, t, hins, hrun, ht⟩ := ih hopen hlen
      refine ⟨inp :: ins, t, by simp [hins], ?_, h.finishes_of_goesOn hx hq hsend hgave ht⟩
      rw [Nat.add_comm]
      exact run_trans (run_one hstep) hrun

end Sys2Proof.Machine
end

section
/-! PROOFS. Whole commands, from the issue to the completion: what they send, what their sinks get, and how many steps
they take (R106, R142, R149, R152, R154, R158). -/

namespace Sys2Proof.Machine

/-! ### From the issue to the completion -/

theorem Descriptor.length_length (d : Descriptor) (n : Len) : d.length (d.length n) = d.length n :=
  Descriptor.length_of_lengthFits (d.lengthFits_length n)

/-- The state after the issue of the framed command `c`, whose row is `d` (R142). -/
def State.issuedFor (s : State) (d : Descriptor) (c : Command) : State :=
  s.issued c.op (encodeAddr d.akind c.payload.addr) (d.length c.payload.len) c.payload.data

/-- A command just issued has its whole frame to send (R104, R152). -/
theorem Descriptor.toSend_issuedFor (d : Descriptor) (w : Byte) (s : State) (c : Command) :
    d.toSend w (s.issuedFor d c) = d.frameSent w c.payload s.buf := by
  have hdata : d.dataSent (s.issuedFor d c).latched.payload s.buf = d.dataSent c.payload s.buf := by
    unfold Descriptor.dataSent
    simp only [State.issuedFor, State.issued, State.latched, d.length_length]
  exact congrArg (d.header w (encodeAddr d.akind c.payload.addr) ++ ·) hdata

theorem Descriptor.header_length (d : Descriptor) (w : Byte) (a : FrameAddr) :
    (d.header w a).length = 1 + if d.akind = .noAddr then 0 else 3 := by
  unfold Descriptor.header
  split <;> rfl

theorem Descriptor.frameSent_length {op : OpCode} {d : Descriptor} (hd : descriptor op = some d) (w : Byte)
    (p : Payload) (buf : Memory) :
    (d.frameSent w p buf).length =
      (d.header w (encodeAddr d.akind p.addr)).length + (d.length p.len).toNat := by
  rw [Descriptor.frameSent, List.length_append, Descriptor.dataSent_length hd]

section
variable {s : State} {c : Command} {cs : List Command} {d : Descriptor}

/-- An idle block at its turn with the command `c` before it, whose row is `d` and whose checks pass. -/
structure State.Accepts (s : State) (c : Command) (cs : List Command) (d : Descriptor) : Prop where
  turn : s.agenda = []
  noFrame : s.bus = []
  idle : s.phase = .idle
  offered : s.cmd = c :: cs
  row : descriptor c.op = some d
  passes : d.issueError s.cfg.checkEn c.payload = none

theorem State.Accepts.step_eq (h : s.Accepts c cs d) : step s = .next (d.issue c.payload s) := by
  rw [step_turn h.turn, move_idle_command h.idle h.noFrame h.offered h.row]

/-- A framed command on a transport that answers its frame, from the issue to the completion (R106, R142, R158). -/
theorem State.Accepts.run_framed {w : Byte} {n : Nat} (h : s.Accepts c cs d) (hw : d.wop = some w)
    (hn : (d.frameSent w c.payload s.buf).length = n) (hl : s.link.Answers n) :
    ∃ ins t, ins.length = n ∧ core.run (1 + n) s = .next t ∧ d.Finishes w (s.issuedFor d c) ins t := by
  have hissue : step s = .next (s.issuedFor d c) := by
    rw [h.step_eq, Descriptor.issue_eq_issued h.row hw h.passes]
    rfl
  have hopen : d.Open w (s.issuedFor d c) n :=
    { row := h.row
      wop := hw
      frame := rfl
      positioned := State.issued_positioned h.row hw s c.payload
      turn := h.turn
      answers := hl }
  obtain ⟨ins, t, hins, hrun, ht⟩ := hopen.run (by rw [d.toSend_issuedFor, hn])
  exact ⟨ins, t, hins, run_trans (run_one hissue) hrun, ht⟩

/-- INIT with the responder, which returns from TInit (R144, R155). -/
theorem State.Accepts.run_init (h : s.Accepts c cs rowInit) (hl : s.link = .responder []) :
    core.run (1 + 1) s =
      .next (State.complete { s.issuedInit c.payload with trace := s.trace ++ [.tInit], phase := .idle }) := by
  have hissue : step s = .next (s.issuedInit c.payload) := by
    rw [h.step_eq, Descriptor.issue_accepted h.passes]
    rfl
  refine run_trans (run_one hissue) (run_one ?_)
  rw [step_turn (s := s.issuedInit c.payload) h.turn, move_busy (d := rowInit) (by simp [State.issuedInit]) rfl]
  simp [Descriptor.advance, State.transportInit, State.issuedInit, hl]

end

/-- Settles O27: INIT takes its one step, a framed command one for each byte of its frame. -/
theorem acceptedCommandsTerminate : Obligations.AcceptedCommandsTerminate := by
  intro s c cs d ha hb hp hc hd herr hl
  have haccepts : s.Accepts c cs d := ⟨ha, hb, hp, hc, hd, herr⟩
  cases hw : d.wop with
  | none =>
    obtain ⟨hop, rfl⟩ := descriptor_unframed c.op d hd hw
    rw [if_pos hop]
    exact ⟨_, haccepts.run_init hl, rfl, rfl, rfl, by simp [State.issuedInit]⟩
  | some w =>
    have hop : c.op ≠ 0x0 := by
      intro h0
      rw [h0] at hd
      cases hd
      cases hw
    have hn := Descriptor.frameSent_length hd w c.payload s.buf
    rw [d.header_length] at hn
    obtain ⟨ins, t, -, hrun, ht⟩ := haccepts.run_framed hw hn (by rw [hl]; rfl)
    rw [if_neg hop]
    exact ⟨t, hrun, ht.phase, ht.idx, ht.rErr, by simp [ht.responses, State.issuedFor, State.issued]⟩

/-! ### The answers to a whole command -/

/-- The issue has cleared the sinks but BUF (R142). -/
theorem Descriptor.sunk_issuedFor (d : Descriptor) (s : State) (c : Command) (ins : List Byte) :
    d.sunk (s.issuedFor d c) ins =
      (if d.latchesRData then ins.getLast?.getD 0 else 0,
       if d.latchesRFlag then (ins.getLast?.getD 0).getLsbD 0 else false, d.stored s.buf 0 ins) := by
  rw [← wipFlag_eq_bit0, ← Option.getD_map wipFlag]
  rfl

/-- A framed command on a list of answers: those to its header are discarded, those to its data phase go to the sinks
(R149, R152). -/
theorem State.Accepts.run_scripted {s : State} {c : Command} {cs : List Command} {d : Descriptor} {w : Byte}
    {head body more : List Answer} (h : s.Accepts c cs d) (hw : d.wop = some w)
    (hl : s.link = .scripted (head ++ body ++ more)) (hgood : ∀ a ∈ head ++ body, a.fail = false)
    (hhead : head.length = (d.header w (encodeAddr d.akind c.payload.addr)).length)
    (hbody : body.length = (d.length c.payload.len).toNat) :
    ∃ t, core.run (1 + head.length + body.length) s = .next t ∧
      d.Finishes w (s.issuedFor d c) ((head ++ body).map Answer.inp) t ∧ t.link = .scripted more ∧
      (t.rData, t.rFlag, t.buf) = d.sunk (s.issuedFor d c) (body.map Answer.inp) := by
  have hn : (d.frameSent w c.payload s.buf).length = (head ++ body).length := by
    rw [Descriptor.frameSent_length h.row, List.length_append, hhead, hbody]
  have hanswers : s.link.Answers (head ++ body).length := by
    rw [hl]
    refine ⟨by simp, ?_⟩
    rwa [List.take_left]
  obtain ⟨ins, t, hins, hrun, ht⟩ := h.run_framed hw hn hanswers
  have hgave := ht.link
  simp only [State.issuedFor, State.issued, hl] at hgave
  obtain ⟨given, rest, hsplit, rfl, hrest⟩ := hgave
  obtain ⟨rfl, rfl⟩ := List.append_inj hsplit (by simpa using hins.symm)
  have hdata : d.dataOf w (s.issuedFor d c) ((head ++ body).map Answer.inp) = body.map Answer.inp := by
    have hheader : (d.headerLeft w (s.issuedFor d c)).length = (head.map Answer.inp).length := by
      rw [List.length_map, hhead]
      rfl
    rw [Descriptor.dataOf, hheader, List.map_append, List.drop_left]
  refine ⟨t, ?_, ht, hrest, hdata ▸ ht.sinks⟩
  rwa [Nat.add_assoc, ← List.length_append]

/-! ### BUF after a whole command -/

theorem descriptor_bufSink_read : ∀ op, ∀ d ∈ descriptor op, d.sink = .buf → d.dir = .read := by decide

/-- READ_LOCK_STATUS is the one command that stores to BUF[0] whatever IDX is (R222). -/
theorem descriptor_bufZeroSink :
    ∀ op, ∀ d ∈ descriptor op, d.sink = .bufZeroAndRData → d = rowReadLockStatus := by decide

/-- A read stream leaves its bytes in order from BUF[0] on, and the rest of BUF as it was (R183, R220). -/
theorem Descriptor.stored_stream {d : Descriptor} (hdir : d.dir = .read) (hsink : d.sink = .buf) {buf : Memory}
    (hwf : buf.wf = true) (ins : List Byte) (a : Nat) :
    (d.stored buf 0 ins).read a = ins[a]?.getD (buf.read a) := by
  have hrun : d.stored buf 0 ins = buf.writeRun id 0 ins := by simp [Descriptor.stored, hdir, hsink]
  rw [hrun]
  by_cases h : a < ins.length
  · have hread := Memory.read_writeRun_same hwf (addrOf := id) 0 ins (fun j k hjk _ => by simp; omega) h
    simpa [h] using hread
  · rw [Memory.read_writeRun_other buf id 0 ins (fun k hk => by simp; omega)]
    simp [h]

theorem stored_lockStatus (buf : Memory) {ins : List Byte} (h : ins.length = 1) :
    rowReadLockStatus.stored buf 0 ins = buf.write 0 (ins.getLast?.getD 0) := by
  obtain ⟨b, rfl⟩ := List.length_eq_one_iff.mp h
  rfl

theorem Descriptor.stored_none {d : Descriptor} (hbuf : d.sink ≠ .buf) (hzero : d.sink ≠ .bufZeroAndRData)
    (buf : Memory) (i : Nat) (ins : List Byte) : d.stored buf i ins = buf := by
  unfold Descriptor.stored
  cases h : d.sink <;> simp [h] at hbuf hzero ⊢

/-- Settles O26: the bytes of the frame with the answers given to them, and the sinks filled from the answers to the
data phase. -/
theorem wholeCommandSendsItsFrame : Obligations.WholeCommandSendsItsFrame := by
  intro s c cs d w head body more ha hb hp hc hwf hd hw herr hl hgood hhead hbody
  have haccepts : s.Accepts c cs d := ⟨ha, hb, hp, hc, hd, herr⟩
  obtain ⟨t, hrun, ht, hlink, hsinks⟩ := haccepts.run_scripted hw hl hgood hhead hbody
  rw [d.sunk_issuedFor, List.getLast?_map] at hsinks
  simp only [Prod.mk.injEq] at hsinks
  obtain ⟨hrData, hrFlag, hbuf⟩ := hsinks
  refine ⟨t, hrun, ?_, ht.phase, ht.idx, ht.rErr, ?_, hlink, hrData, hrFlag, ht.responses, ?_, ?_, ?_⟩
  · rw [ht.trace, d.toSend_issuedFor, exchanges, List.zipWith_map_right]
    rfl
  · rw [ht.cmd]
    exact congrArg List.tail hc
  · intro hsink a
    rw [hbuf, Descriptor.stored_stream (descriptor_bufSink_read _ d hd hsink) hsink hwf, List.getElem?_map]
  · intro hsink a
    obtain rfl := descriptor_bufZeroSink _ d hd hsink
    rw [hbuf, stored_lockStatus s.buf (by rw [List.length_map, hbody]; rfl), hrData, List.getLast?_map]
    exact Memory.read_write hwf 0 a _
  · intro hsink hzero
    rw [hbuf, Descriptor.stored_none hsink hzero]

end Sys2Proof.Machine
end

section
/-! PROOFS. Each step of the sequencer on a transport that gives a list of answers (R144 to R151, R155): INIT's one
call, the header of a frame, and what a failure does to it. -/

namespace Sys2Proof.Machine

/-! ### INIT -/

/-- INIT has no operand to check (R101, R142). -/
theorem rowInit_issue (p : Payload) (s : State) : rowInit.issue p s = s.issuedInit p := by
  have hpass : rowInit.issueError s.cfg.checkEn p = none :=
    Descriptor.issueError_eq_none (fun _ => Descriptor.outOfRange_noAddr (Or.inl rfl) p.addr)
      (fun _ => Descriptor.crossesPage_unchecked rfl p)
  rw [Descriptor.issue_accepted hpass]
  rfl

theorem State.transportInit_scripted {s : State} {a : Answer} {as : List Answer} (h : s.link = .scripted (a :: as)) :
    s.transportInit = some { s with link := .scripted as, trace := s.trace ++ [.tInit] } := by
  simp [State.transportInit, h]

/-- INIT's one step: TInit returns, whatever it answers, and the command completes (R144, R155). -/
theorem Descriptor.advance_tinit (d : Descriptor) {s : State} {a : Answer} {as : List Answer} (hp : s.phase = .tinit)
    (hl : s.link = .scripted (a :: as)) :
    d.advance s = .next
      (State.complete { s with phase := .idle, link := .scripted as, trace := s.trace ++ [.tInit] }) := by
  simp only [Descriptor.advance, hp, State.transportInit_scripted hl]

/-- Settles O6, the issue and the step. -/
theorem initCallsTheTransportOnce : Obligations.InitCallsTheTransportOnce := by
  refine ⟨fun p s hp => ?_, fun p s a as hp hop hl => ?_⟩
  · have hissue : exec (.init p) s = .next (rowInit.issue p s) := if_pos hp
    rw [hissue, rowInit_issue]
    rfl
  · exact (Descriptor.execute_busy (d := rowInit) (by simp [hp]) hop p).trans (Descriptor.advance_tinit _ hp hl)

/-! ### The header -/

section
variable {d : Descriptor} {s : State} {out : Byte} {a : Answer} {as : List Answer}

/-- A step of the header discards the byte received (R145 to R147). -/
theorem Descriptor.advance_header (hd : descriptor s.lOp = some d) (hp : s.phase ≠ .data) (hout : s.tOut = some out)
    (hl : s.link = .scripted (a :: as)) (hgood : a.fail = false) :
    d.advance s = .next (d.proceed (s.exchanged out a as false)) := by
  have hnoted : d.noted s = s := if_neg hp
  have htaken : d.taken a.inp (s.exchanged out a as false) = s.exchanged out a as false := if_neg hp
  rw [Descriptor.advance_answered hd hout hl hgood, hnoted, htaken]

/-- The OPC step: the address follows where the command has one, else the data phase where it is not empty (R145). -/
theorem Descriptor.advance_opc {w : Byte} (hd : descriptor s.lOp = some d) (hw : d.wop = some w) (hp : s.phase = .opc)
    (hl : s.link = .scripted (a :: as)) (hgood : a.fail = false) :
    d.advance s = .next
      (if d.akind ≠ .noAddr then { s.exchanged w a as false with phase := .ahi }
       else if s.lLen = 0 then (s.exchanged w a as false).ended
       else { s.exchanged w a as false with phase := .data }) := by
  have hout : s.tOut = some w := (State.tOut_opc hd hp).trans hw
  rw [Descriptor.advance_header hd (by simp [hp]) hout hl hgood, ← d.afterOpcode_eq_proceed (by exact hp),
    Descriptor.afterOpcode, State.finish_detached rfl]
  rfl

theorem Descriptor.advance_ahi (hd : descriptor s.lOp = some d) (hp : s.phase = .ahi)
    (hl : s.link = .scripted (a :: as)) (hgood : a.fail = false) :
    d.advance s = .next { s.exchanged (addrHi s.faddr) a as false with phase := .amid } := by
  have hout : s.tOut = some (addrHi s.faddr) := by simp [State.tOut, hd, hp]
  have hnext : d.nextPhase (s.exchanged (addrHi s.faddr) a as false) = some .amid := by
    simp [Descriptor.nextPhase, State.exchanged, hp]
  rw [Descriptor.advance_header hd (by simp [hp]) hout hl hgood, Descriptor.proceed, hnext]

theorem Descriptor.advance_amid (hd : descriptor s.lOp = some d) (hp : s.phase = .amid)
    (hl : s.link = .scripted (a :: as)) (hgood : a.fail = false) :
    d.advance s = .next { s.exchanged (addrMid s.faddr) a as false with phase := .alo } := by
  have hout : s.tOut = some (addrMid s.faddr) := by simp [State.tOut, hd, hp]
  have hnext : d.nextPhase (s.exchanged (addrMid s.faddr) a as false) = some .alo := by
    simp [Descriptor.nextPhase, State.exchanged, hp]
  rw [Descriptor.advance_header hd (by simp [hp]) hout hl hgood, Descriptor.proceed, hnext]

/-- The ALO step ends the header: the data phase follows where it is not empty (R147). -/
theorem Descriptor.advance_alo (hd : descriptor s.lOp = some d) (hp : s.phase = .alo)
    (hl : s.link = .scripted (a :: as)) (hgood : a.fail = false) :
    d.advance s = .next
      (if s.lLen = 0 then (s.exchanged (addrLo s.faddr) a as false).ended
       else { s.exchanged (addrLo s.faddr) a as false with phase := .data }) := by
  have hout : s.tOut = some (addrLo s.faddr) := by simp [State.tOut, hd, hp]
  rw [Descriptor.advance_header hd (by simp [hp]) hout hl hgood, ← State.afterAddress_eq_proceed d (by exact hp),
    State.afterAddress, State.finish_detached rfl]
  rfl

end

/-- Settles O16, phase by phase. -/
theorem headerStepsFollowTheFrame : Obligations.HeaderStepsFollowTheFrame := by
  intro s d w a as hagenda hd hw hl hgood
  have hstep (hbusy : s.phase ≠ .idle) : step s = d.advance s := (step_turn hagenda).trans (move_busy hbusy hd)
  refine ⟨fun hp => ?_, fun hp => ?_, fun hp => ?_, fun hp => ?_⟩ <;> rw [hstep (by simp [hp])]
  · exact Descriptor.advance_opc hd hw hp hl hgood
  · exact Descriptor.advance_ahi hd hp hl hgood
  · exact Descriptor.advance_amid hd hp hl hgood
  · exact Descriptor.advance_alo hd hp hl hgood

/-- A command with neither address nor data completes with its opcode (R145, R202, R203). -/
theorem Descriptor.execute_opcodeOnly {d : Descriptor} {s : State} {w : Byte} {a : Answer} {as : List Answer}
    (hd : descriptor s.lOp = some d) (hw : d.wop = some w) (hk : d.akind = .noAddr) (hp : s.phase = .opc)
    (hn : s.lLen = 0) (hl : s.link = .scripted (a :: as)) (hgood : a.fail = false) (p : Payload) :
    d.execute p s = .next (s.exchanged w a as false).ended := by
  rw [Descriptor.execute_busy (by simp [hp]) (descriptor_op hd).symm, Descriptor.advance_opc hd hw hp hl hgood,
    if_neg (not_not.mpr hk), if_pos hn]

/-- Settles O17: neither row has an address or a data phase. -/
theorem datalessCommandsComplete : Obligations.DatalessCommandsComplete := by
  intro p s a as hp hn hl hgood
  refine ⟨fun hop => ?_, fun hop => ?_⟩
  · exact Descriptor.execute_opcodeOnly (d := rowSetWriteEnable) (by rw [hop]; rfl) rfl rfl hp hn hl hgood p
  · exact Descriptor.execute_opcodeOnly (d := rowWriteDisable) (by rw [hop]; rfl) rfl rfl hp hn hl hgood p

/-! ### Any answer -/

/-- What an exchange of `out` with the scripted answer `a` gives, the failure bit tied to 0 with T_CAN_FAIL = 0. -/
def State.answeredBy (s : State) (out : Byte) (a : Answer) (as : List Answer) : Exchanged :=
  ⟨a.inp, a.fail && s.cfg.tCanFail, s.exchanged out a as (a.fail && s.cfg.tCanFail)⟩

@[simp] theorem Descriptor.noted_cfg (d : Descriptor) (s : State) : (d.noted s).cfg = s.cfg := by
  unfold Descriptor.noted; split <;> simp
@[simp] theorem Descriptor.noted_trace (d : Descriptor) (s : State) : (d.noted s).trace = s.trace := by
  unfold Descriptor.noted; split <;> simp

/-- The only thing a data step does before its exchange is to log its read of BUF (R37, R116). -/
theorem Descriptor.noted_eq (d : Descriptor) (s : State) :
    d.noted s = { s with
      bufLog :=
        if s.phase = .data ∧ d.dir = .write ∧ d.src = .buf then s.bufLog ++ [.read s.idx] else s.bufLog } := by
  by_cases h : s.phase = .data ∧ d.dir = .write ∧ d.src = .buf
  · rw [if_pos h, Descriptor.noted, if_pos h.1, Descriptor.noteBufRead, if_pos h.2]
  · rw [if_neg h]
    unfold Descriptor.noted Descriptor.noteBufRead
    split_ifs with hp hread
    · exact absurd ⟨hp, hread⟩ h
    · rfl
    · rfl

/-- A step of an open frame on a list of answers, good or failed. -/
theorem step_answered {d : Descriptor} {s : State} {out : Byte} {a : Answer} {as : List Answer}
    (hagenda : s.agenda = []) (hd : descriptor s.lOp = some d) (hout : s.tOut = some out)
    (hl : s.link = .scripted (a :: as)) : step s = .next (d.afterExchange ((d.noted s).answeredBy out a as)) := by
  have hbusy := State.busy_of_frameActive (State.frameActive_of_tOut hout)
  rw [step_turn hagenda, move_busy hbusy hd]
  exact Descriptor.advance_of_xchg hd hout (State.xchg_scripted ((d.noted_link s).trans hl) out)

/-! ### Failures -/

/-- A failed exchange in an open frame ends it with TransportFailure (R151, R247). -/
theorem Descriptor.afterExchange_failed (d : Descriptor) {x : Exchanged} (hfail : x.fail = true)
    (hf : x.after.frameActive = true) (hl : x.after.link.attached = false) :
    d.afterExchange x = ({ x.after with rErr := .transportFailure } : State).ended := by
  rw [Descriptor.afterExchange, if_pos hfail, State.raise, State.closeFrame, if_pos hf]
  simp [State.frameEnd, State.complete, State.ended, hl]

/-- Settles O22: the failure is raised in the open frame, and is not seen with T_CAN_FAIL = 0. -/
theorem failedExchangeEndsTheFrame : Obligations.FailedExchangeEndsTheFrame := by
  intro s d out a as hagenda hd hout hl hfailed
  rw [step_answered hagenda hd hout hl]
  refine ⟨fun hcan => ?_, fun hcan => ?_⟩
  · have hfail : (a.fail && (d.noted s).cfg.tCanFail) = true := by simp [hfailed, hcan]
    have hf : (d.noted s).frameActive = true := by
      rw [State.frameActive, d.noted_phase]
      exact State.frameActive_of_tOut hout
    rw [d.afterExchange_failed (x := (d.noted s).answeredBy out a as) hfail hf rfl, State.answeredBy, hfail,
      d.noted_eq]
    rfl
  · have htied (b : Bool) : (b && (d.noted s).cfg.tCanFail) = false := by simp [hcan]
    have hstep := step_answered (s := s.wired (.scripted ({ a with fail := false } :: as))) hagenda hd hout rfl
    refine Eq.trans ?_ hstep.symm
    rw [d.noted_wired, State.answeredBy, State.answeredBy, State.wired, htied, htied]
    rfl

end Sys2Proof.Machine
end

section
/-! PROOFS. What a step of the command in progress depends on and where it can go: offered commands (R141) and
discarded bytes (R149, R153) have no part in it, and PHASE moves along its relation (R156). -/

namespace Sys2Proof.Machine

/-- Between IDLE and an open frame there is TINIT alone (R21, R30). -/
theorem State.tinit_of_noFrame {s : State} (hbusy : s.phase ≠ .idle) (hf : s.frameActive ≠ true) :
    s.phase = .tinit := by
  cases hp : s.phase <;> simp [State.frameActive, hp, Phase.inFrame] at hf hbusy ⊢

/-! ### Offered commands -/

/-- The state with other commands offered. -/
def State.withOffers (s : State) (cs : List Command) : State := { s with cmd := cs }

section
variable (s : State) (d : Descriptor) (cs : List Command)

theorem State.xchg_withOffers (out : Byte) :
    (s.withOffers cs).xchg out = (s.xchg out).map fun x => { x with after := x.after.withOffers cs } := by
  unfold State.xchg State.withOffers
  cases s.link with
  | scripted answers => cases answers <;> rfl
  | responder fails => rfl

theorem State.transportInit_withOffers :
    (s.withOffers cs).transportInit = s.transportInit.map fun u => u.withOffers cs := by
  unfold State.transportInit State.withOffers
  cases s.link with
  | scripted answers => cases answers <;> rfl
  | responder fails => rfl

theorem State.raise_withOffers (e : ErrorCode) : (s.withOffers cs).raise e = (s.raise e).withOffers cs := by
  have hf : (s.withOffers cs).frameActive = s.frameActive := rfl
  unfold State.raise State.closeFrame
  rw [hf]
  split <;> rfl

theorem Descriptor.noted_withOffers : d.noted (s.withOffers cs) = (d.noted s).withOffers cs := by
  rw [d.noted_eq, d.noted_eq]
  rfl

theorem Descriptor.taken_withOffers (inp : Byte) : d.taken inp (s.withOffers cs) = (d.taken inp s).withOffers cs := by
  have hstore : d.storeIndex (s.withOffers cs) = d.storeIndex s := rfl
  have hphase : (s.withOffers cs).phase = s.phase := rfl
  unfold Descriptor.taken Descriptor.dataIn
  rw [hstore, hphase]
  cases d.storeIndex s <;> dsimp only <;> split <;> rfl

theorem Descriptor.proceed_withOffers : d.proceed (s.withOffers cs) = (d.proceed s).withOffers cs := by
  have hnext : d.nextPhase (s.withOffers cs) = d.nextPhase s := rfl
  unfold Descriptor.proceed
  rw [hnext]
  cases d.nextPhase s <;> rfl

end

/-- The command in progress takes the same step whatever is offered meanwhile (R141). -/
theorem Descriptor.advance_withOffers {d : Descriptor} {s t : State} (hd : descriptor s.lOp = some d)
    (hbusy : s.phase ≠ .idle) (h : d.advance s = .next t) (cs : List Command) :
    d.advance (s.withOffers cs) = .next (t.withOffers cs) := by
  by_cases hf : s.frameActive = true
  · obtain ⟨out, hout⟩ := Descriptor.tOut_of_advance hd hf h
    rw [Descriptor.advance_eq_exchange hd hout] at h
    rw [Descriptor.advance_eq_exchange (s := s.withOffers cs) hd hout, State.exchange, d.noted_withOffers,
      State.xchg_withOffers]
    unfold State.exchange at h
    cases hx : (d.noted s).xchg out with
    | none =>
      rw [hx] at h
      cases h
      rfl
    | some x =>
      simp only [hx, Option.map_some] at h ⊢
      split_ifs at h ⊢ <;> cases h
      · rw [State.raise_withOffers]
      · rw [d.taken_withOffers, d.proceed_withOffers]
  · have hp : s.phase = .tinit := State.tinit_of_noFrame hbusy hf
    have hphase : (s.withOffers cs).phase = .tinit := hp
    simp only [Descriptor.advance, hp] at h
    simp only [Descriptor.advance, hphase, State.transportInit_withOffers]
    cases hu : s.transportInit <;> (rw [hu] at h; cases h; rfl)

/-- Settles O15: the step is the same for every offer, so with the offer as it stands it keeps that offer; and exec of
another command finds its code not in L_OP. -/
theorem busyBlockAcceptsNothing : Obligations.BusyBlockAcceptsNothing := by
  refine ⟨fun s t cs hagenda hbusy hstep => ?_, fun s c i hbusy hi hne => ?_⟩
  · cases hd : descriptor s.lOp with
    | none =>
      rw [step_turn hagenda, move_unreachable hbusy hd] at hstep
      cases hstep
    | some d =>
      have hturn (offer : List Command) : step (s.withOffers offer) = d.advance (s.withOffers offer) :=
        (step_turn (s := s.withOffers offer) hagenda).trans (move_busy (s := s.withOffers offer) hbusy hd)
      have hsame (offer : List Command) : step (s.withOffers offer) = .next (t.withOffers offer) :=
        (hturn offer).trans (Descriptor.advance_withOffers hd hbusy ((hturn s.cmd).symm.trans hstep) offer)
      have hkeeps : t = t.withOffers s.cmd := by
        have hself : step s = .next (t.withOffers s.cmd) := hsame s.cmd
        rw [hstep] at hself
        exact Host.Outcome.next.inj hself
      exact ⟨(congrArg State.cmd hkeeps).trans rfl, hsame cs⟩
  · rcases decodeCommand_row c with ⟨j, d, hj, hd, hrow⟩ | ⟨he, -⟩
    · obtain rfl : j = i := Except.ok.inj (hj.symm.trans hi)
      have hop : s.lOp ≠ d.op := by rw [descriptor_op hd]; exact hne.symm
      rw [hrow, Descriptor.execute, if_neg hbusy, if_neg hop]
    · simp [he] at hi

/-! ### Bytes received -/

/-- The state with another wire trace. -/
def State.withTrace (s : State) (tr : List WireEvent) : State := { s with trace := tr }

section
variable (d : Descriptor) (s : State)

/-- After its exchange a step can only end the frame. -/
theorem Descriptor.afterExchange_trace (x : Exchanged) : ∃ l, (d.afterExchange x).trace = x.after.trace ++ l := by
  unfold Descriptor.afterExchange Descriptor.proceed
  split
  · rw [State.raise_trace]
    split
    · exact ⟨_, rfl⟩
    · exact ⟨[], (List.append_nil _).symm⟩
  · split
    · exact ⟨[.frameEnd], by simp⟩
    · exact ⟨[], by simp⟩

theorem State.raise_withTrace (e : ErrorCode) (tr : List WireEvent) :
    ∃ tr', (s.withTrace tr).raise e = (s.raise e).withTrace tr' := by
  have hf : (s.withTrace tr).frameActive = s.frameActive := rfl
  unfold State.raise State.closeFrame
  rw [hf]
  split <;> exact ⟨_, rfl⟩

theorem Descriptor.proceed_withTrace (tr : List WireEvent) :
    ∃ tr', d.proceed (s.withTrace tr) = (d.proceed s).withTrace tr' := by
  have hnext : d.nextPhase (s.withTrace tr) = d.nextPhase s := rfl
  unfold Descriptor.proceed
  rw [hnext]
  cases d.nextPhase s <;> exact ⟨_, rfl⟩

variable {d s}

/-- Outside the data steps of a read the byte received goes nowhere (R145 to R147, R149). -/
theorem Descriptor.taken_discards (h : s.phase = .data → d.dir ≠ .read) (inp : Byte) :
    d.taken inp s = { s with idx := if s.phase = .data then s.idx + 1 else s.idx } := by
  by_cases hp : s.phase = .data
  · rw [Descriptor.taken_of_not_read (h hp) inp hp, if_pos hp]
  · rw [Descriptor.taken, if_neg hp, if_neg hp]

/-- Of two answers that differ in a discarded byte the step makes states that differ in the trace only (R149). -/
theorem Descriptor.afterExchange_discards {x : Exchanged} (h : x.after.phase = .data → d.dir ≠ .read) (inp : Byte)
    (tr : List WireEvent) :
    ∃ tr', d.afterExchange ⟨inp, x.fail, x.after.withTrace tr⟩ = (d.afterExchange x).withTrace tr' := by
  have htaken : d.taken inp (x.after.withTrace tr) = (d.taken x.inp x.after).withTrace tr := by
    rw [Descriptor.taken_discards h, Descriptor.taken_discards (by exact h)]
    rfl
  unfold Descriptor.afterExchange
  dsimp only
  split
  · exact State.raise_withTrace ..
  · rw [htaken]
    exact Descriptor.proceed_withTrace ..

end

/-- Settles O24: the exchange stands in the trace with the byte presented; and of two runs that differ in a byte to be
discarded, TInit looks at neither, and an open frame takes neither. -/
theorem sentBytesIgnoreReceivedBytes : Obligations.SentBytesIgnoreReceivedBytes := by
  refine ⟨fun s t out a as hagenda hl hout hstep => ?_, fun s t d a as inp hagenda hd hbusy hread hl hstep => ?_⟩
  · obtain ⟨d, hd⟩ : ∃ d, descriptor s.lOp = some d := by
      cases hd : descriptor s.lOp with
      | none => simp [State.tOut, hd] at hout
      | some d => exact ⟨d, rfl⟩
    rw [step_answered hagenda hd hout hl] at hstep
    cases hstep
    obtain ⟨l, htrace⟩ := d.afterExchange_trace ((d.noted s).answeredBy out a as)
    exact ⟨l, htrace.trans (by simp [State.answeredBy, State.exchanged])⟩
  · by_cases hf : s.frameActive = true
    · have hadvance : d.advance s = .next t := by rw [← move_busy hbusy hd, ← step_turn hagenda, hstep]
      obtain ⟨out, hout⟩ := Descriptor.tOut_of_advance hd hf hadvance
      rw [step_answered hagenda hd hout hl] at hstep
      cases hstep
      obtain ⟨tr, htr⟩ := Descriptor.afterExchange_discards (d := d) (x := (d.noted s).answeredBy out a as)
        (fun hp => hread ((d.noted_phase s).symm.trans hp)) inp
        ((d.noted s).answeredBy out { a with inp := inp } as).after.trace
      have hother := step_answered (s := s.wired (.scripted ({ a with inp := inp } :: as))) hagenda hd hout rfl
      rw [d.noted_wired] at hother
      exact ⟨tr, hother.trans (congrArg _ htr)⟩
    · have hp : s.phase = .tinit := State.tinit_of_noFrame hbusy hf
      have hinit (b : Answer) : step (s.wired (.scripted (b :: as))) = .next (State.complete
          { s with phase := .idle, link := .scripted as, trace := s.trace ++ [.tInit] }) := by
        rw [step_turn (by exact hagenda), move_busy (by exact hbusy) (by exact hd)]
        exact d.advance_tinit hp rfl
      have hself : s.wired (.scripted (a :: as)) = s := by rw [State.wired, ← hl]
      rw [← hself, hinit a] at hstep
      cases hstep
      exact ⟨_, hinit { a with inp := inp }⟩

/-! ### The next-phase relation -/

/-- A step may keep PHASE, and may always end in IDLE (R156, R270, R287). -/
@[simp] theorem Phase.mayBecome_self (p : Phase) : p.mayBecome p = true := by
  simp [Phase.mayBecome]
@[simp] theorem Phase.mayBecome_idle (p : Phase) : p.mayBecome .idle = true := by
  simp [Phase.mayBecome]

theorem Descriptor.nextPhase_mayBecome {d : Descriptor} {v : State} {q : Phase} (h : d.nextPhase v = some q) :
    v.phase.mayBecome q = true := by
  unfold Descriptor.nextPhase at h
  cases hp : v.phase <;> simp only [hp] at h
  case idle | tinit => cases h
  case ahi | amid => cases h; rfl
  case opc | alo | data => split_ifs at h <;> cases h <;> rfl

theorem Descriptor.Advances.phase_mayBecome {d : Descriptor} {s t : State} (h : d.Advances s t) :
    s.phase.mayBecome t.phase = true := by
  cases h with
  | waits => exact s.phase.mayBecome_self
  | inits => exact s.phase.mayBecome_idle
  | fails => simp
  | ends => exact s.phase.mayBecome_idle
  | goesOn out inp u q _ hx hq => simpa [hx.phase] using Descriptor.nextPhase_mayBecome hq

theorem State.Moves.phase_mayBecome {s t : State} (h : s.Moves t) : s.phase.mayBecome t.phase = true := by
  cases h with
  | waits => exact s.phase.mayBecome_self
  | lets f fs hp =>
    rw [State.foreignFrame_rest (State.frameActive_of_idle hp)]
    exact s.phase.mayBecome_self
  | refuses => exact s.phase.mayBecome_self
  | issues _ _ _ _ hp => rw [hp]; rfl
  | issuesInit _ _ hp => rw [hp]; rfl
  | advances d _ _ _ ht => exact ht.phase_mayBecome

theorem environment_phase_mayBecome (e : Event) (s : State) : s.phase.mayBecome (environment e s).phase = true := by
  cases e with
  | reset => exact s.phase.mayBecome_idle
  | turn | hostOffer | hostStore | hostRegWrite | busRequest | writeCycleDone => exact s.phase.mayBecome_self

/-- Settles O31: the block's turn by its cases, and another agent's event keeps PHASE or is a reset. -/
theorem phaseMovesAlongTheRelation : Obligations.PhaseMovesAlongTheRelation := by
  intro s t _ hstep
  obtain ⟨es, hm | ⟨e, -, rfl⟩⟩ := step_next_cases hstep
  · exact (State.moves_of_move hm).phase_mayBecome
  · exact environment_phase_mayBecome e { s with agenda := es }

end Sys2Proof.Machine
end

section
/-! PROOFS. The error results of a command (R240 to R251): which issue check fails and when, what a refused issue
leaves behind, and the mode in which no legal command fails. -/

namespace Sys2Proof.Machine

/-! ### Codes and their checks -/

/-- The reserved codes are the ones without a row (R101, R120). -/
theorem descriptor_eq_none_iff : ∀ op, descriptor op = none ↔ op = 0xE ∨ op = 0xF := by decide

theorem descriptor_main_iff :
    ∀ op, ∀ d ∈ descriptor op, d.akind = .main ↔ op ∈ [0x1, 0x2, 0x3, 0x4] := by decide

theorem descriptor_id_iff : ∀ op, ∀ d ∈ descriptor op, d.akind = .id ↔ op ∈ [0x8, 0x9] := by decide

/-- The two commands with a page check (R142, R242). -/
theorem descriptor_pageChecked : ∀ op, ∀ d ∈ descriptor op, d.pageCheck = true →
    (op = 0x2 ∧ d = rowWriteBuffer) ∨ (op = 0x9 ∧ d = rowWriteIdPage) := by decide

theorem Descriptor.outOfRange_iff (d : Descriptor) (addr : HostAddr) :
    d.outOfRange addr = true ↔
      (d.akind = .main ∧ 0x40000 ≤ addr.toNat) ∨ (d.akind = .id ∧ 0x100 ≤ addr.toNat) := by
  unfold Descriptor.outOfRange
  cases d.akind <;> simp [Config.capacity, Config.pageSize, Config.pageCount]

theorem Descriptor.outOfRange_eq_false_iff (d : Descriptor) (addr : HostAddr) :
    d.outOfRange addr = false ↔
      (d.akind = .main → addr.toNat < 0x40000) ∧ (d.akind = .id → addr.toNat < 0x100) := by
  rw [← Bool.not_eq_true, d.outOfRange_iff, not_or, not_and, not_and, not_le, not_le]

section
variable {op : OpCode} {d : Descriptor}

/-- The page check adds up the host's own length, as both commands that have it take theirs from `cmd_len` (R103). -/
theorem Descriptor.crossesPage_iff (hd : descriptor op = some d) (p : Payload) :
    d.crossesPage p = true ↔ d.pageCheck = true ∧ 256 < (p.addr.extractLsb' 0 8).toNat + p.len.toNat := by
  simp only [Descriptor.crossesPage, Bool.and_eq_true, decide_eq_true_eq]
  refine and_congr_right fun hcheck => ?_
  rcases descriptor_pageChecked op d hd hcheck with ⟨-, rfl⟩ | ⟨-, rfl⟩ <;> rfl

/-- Of the commands with a page check one writes the main array and one the ID page, each within its own range. -/
theorem Descriptor.pageCheck_in_range_iff (hd : descriptor op = some d) (addr : HostAddr) :
    d.outOfRange addr = false ∧ d.pageCheck = true ↔
      (op = 0x2 ∧ addr.toNat < 0x40000) ∨ (op = 0x9 ∧ addr.toNat < 0x100) := by
  constructor
  · rintro ⟨hrange, hcheck⟩
    obtain ⟨hmain, hid⟩ := (d.outOfRange_eq_false_iff addr).mp hrange
    rcases descriptor_pageChecked op d hd hcheck with ⟨rfl, rfl⟩ | ⟨rfl, rfl⟩
    · exact Or.inl ⟨rfl, hmain rfl⟩
    · exact Or.inr ⟨rfl, hid rfl⟩
  · rintro (⟨rfl, haddr⟩ | ⟨rfl, haddr⟩)
    · obtain rfl : rowWriteBuffer = d := Option.some.inj hd
      exact ⟨Descriptor.outOfRange_main rfl haddr, rfl⟩
    · obtain rfl : rowWriteIdPage = d := Option.some.inj hd
      exact ⟨Descriptor.outOfRange_id rfl haddr, rfl⟩

end

/-! ### The error of an issue -/

section
variable {d : Descriptor} {checkEn : Bool} {p : Payload}

/-- The range check is the first of the two (R245). -/
theorem Descriptor.issueError_addressOutOfRange_iff :
    d.issueError checkEn p = some .addressOutOfRange ↔ checkEn = true ∧ d.outOfRange p.addr = true := by
  refine ⟨fun h => ?_, fun ⟨hc, hr⟩ => by simp [Descriptor.issueError, hc, hr]⟩
  obtain ⟨hc, ⟨-, hr⟩ | ⟨he, -⟩⟩ := Descriptor.issueError_spec h
  · exact ⟨hc, hr⟩
  · cases he

/-- The page check reports only what the range check has let pass (R245). -/
theorem Descriptor.issueError_pageBoundaryCrossed_iff :
    d.issueError checkEn p = some .pageBoundaryCrossed ↔
      checkEn = true ∧ d.outOfRange p.addr = false ∧ d.crossesPage p = true := by
  refine ⟨fun h => ?_, fun ⟨hc, hr, hx⟩ => by simp [Descriptor.issueError, hc, hr, hx]⟩
  obtain ⟨hc, ⟨he, -⟩ | ⟨-, hr, hx⟩⟩ := Descriptor.issueError_spec h
  · cases he
  · exact ⟨hc, hr, hx⟩

end

@[simp] theorem Descriptor.accept_rErr (d : Descriptor) (p : Payload) (s : State) : (d.accept p s).rErr = s.rErr := by
  unfold Descriptor.accept
  cases d.wop <;> rfl

/-- R_ERR after an issue is the error of the first check that fails (R142, R246). -/
theorem Descriptor.issue_rErr (d : Descriptor) (p : Payload) (s : State) :
    (d.issue p s).rErr = (d.issueError s.cfg.checkEn p).getD .noError := by
  rcases d.issue_cases p s with ⟨e, he, h⟩ | ⟨he, h⟩ <;> simp [h, he]

theorem Descriptor.issue_rErr_eq_iff {d : Descriptor} {p : Payload} {s : State} {e : ErrorCode} (he : e ≠ .noError) :
    (d.issue p s).rErr = e ↔ d.issueError s.cfg.checkEn p = some e := by
  rw [d.issue_rErr, Option.getD_eq_iff]
  exact or_iff_left fun ⟨_, h⟩ => he h.symm

/-- A command that decodes is issued by an idle block from the row of its code. -/
theorem exec_eq_issue {s : State} {c : Command} {i : Instr} (hp : s.phase = .idle) (hi : decodeCommand c = .ok i) :
    ∃ d, descriptor c.op = some d ∧ exec i s = .next (d.issue c.payload s) := by
  rcases decodeCommand_row c with ⟨j, d, hj, hd, hrow⟩ | ⟨he, -⟩
  · obtain rfl : j = i := Except.ok.inj (hj.symm.trans hi)
    exact ⟨d, hd, by rw [hrow, Descriptor.execute, if_pos hp]⟩
  · simp [he] at hi

/-- Settles O10: the error is the range check's, and its two kinds of address are the codes named. -/
theorem addressOutOfRangeExactlyWhen : Obligations.AddressOutOfRangeExactlyWhen := by
  intro s t c i hp hi hexec
  obtain ⟨d, hd, hissue⟩ := exec_eq_issue hp hi
  obtain rfl : d.issue c.payload s = t := Host.Outcome.next.inj (hissue.symm.trans hexec)
  rw [Descriptor.issue_rErr_eq_iff (by decide), Descriptor.issueError_addressOutOfRange_iff, d.outOfRange_iff,
    descriptor_main_iff _ d hd, descriptor_id_iff _ d hd]

/-- Settles O11: the error is the page check's after the range check, and each of the two commands with a page check
has one kind of address. -/
theorem pageBoundaryCrossedExactlyWhen : Obligations.PageBoundaryCrossedExactlyWhen := by
  intro s t c i hp hi hexec
  obtain ⟨d, hd, hissue⟩ := exec_eq_issue hp hi
  obtain rfl : d.issue c.payload s = t := Host.Outcome.next.inj (hissue.symm.trans hexec)
  rw [Descriptor.issue_rErr_eq_iff (by decide), Descriptor.issueError_pageBoundaryCrossed_iff,
    Descriptor.crossesPage_iff hd, ← and_assoc (c := _ < _), Descriptor.pageCheck_in_range_iff hd]

/-! ### A refused issue -/

/-- Settles O13: of all an idle block does with an offered command only a refusal leaves an error. -/
theorem issueErrorIsPrecise : Obligations.IssueErrorIsPrecise := by
  intro s t c cs ha hp hb hc hstep herr
  rw [step_turn ha] at hstep
  cases State.moves_of_move hstep with
  | waits _ _ hnone => simp [hc] at hnone
  | lets f fs _ hframe => simp [hb] at hframe
  | refuses c' cs' e _ _ hc' =>
    obtain ⟨rfl, -⟩ := List.cons.inj (hc.symm.trans hc')
    rfl
  | issues => exact absurd rfl herr
  | issuesInit => exact absurd rfl herr
  | advances d _ hbusy => exact absurd hp hbusy

/-- Settles O12: a code without a row is issued to IllegalCommand before anything else is looked at. -/
theorem reservedCodesRaiseIllegalCommand : Obligations.ReservedCodesRaiseIllegalCommand := by
  intro s c cs ha hp hb hc hop
  have hnone : descriptor c.op = none := (descriptor_eq_none_iff c.op).mpr hop
  rw [step_turn ha]
  rcases move_idle_cases hp with ⟨-, hc', -⟩ | ⟨f, fs, hb', -⟩ | ⟨c', cs', d, -, hc', hd, -⟩ |
    ⟨c', cs', -, hc', -, hm⟩
  · simp [hc] at hc'
  · simp [hb] at hb'
  · obtain ⟨rfl, -⟩ := List.cons.inj (hc.symm.trans hc')
    simp [hnone] at hd
  · obtain ⟨rfl, -⟩ := List.cons.inj (hc.symm.trans hc')
    rw [hm, State.issueReserved, State.beginIssue_raise hp]

/-! ### The reference mode -/

/-- With T_CAN_FAIL = 0 no exchange fails, so a command in progress keeps R_ERR (R244). -/
theorem Descriptor.Advances.keeps_rErr {d : Descriptor} {s t : State} (h : d.Advances s t)
    (hfail : s.cfg.tCanFail = false) : t.rErr = s.rErr := by
  cases h with
  | waits => rfl
  | inits u _ hu => rw [(State.transportInit_spec hu).1]; rfl
  | fails out inp u _ hx => simp [hx.canFail rfl] at hfail
  | ends out inp u _ hx => simp [hx.rErr]
  | goesOn out inp u q _ hx => simp [hx.rErr]

/-- The block's turn raises no error where no check is made, no exchange fails and no reserved code is offered. -/
theorem move_noError {s t : State} (hcheck : s.cfg.checkEn = false) (hfail : s.cfg.tCanFail = false)
    (hs : s.rErr = .noError) (hlegal : ∀ c ∈ s.cmd, c.op ≠ 0xE ∧ c.op ≠ 0xF) (h : move s = .next t) :
    t.rErr = .noError := by
  by_cases hp : s.phase = .idle
  · rcases move_idle_cases hp with ⟨-, -, hm⟩ | ⟨f, fs, -, hm⟩ | ⟨c, cs, d, -, -, -, hm⟩ |
      ⟨c, cs, -, hc, hnone, hm⟩ <;> (rw [h] at hm; cases hm)
    · exact hs
    · rw [State.foreignFrame_rest (State.frameActive_of_idle hp)]
      exact hs
    · rw [d.issue_rErr, hcheck]
      rfl
    · obtain ⟨hE, hF⟩ := hlegal c (by simp [hc])
      exact absurd ((descriptor_eq_none_iff c.op).mp hnone) (not_or.mpr ⟨hE, hF⟩)
  · cases hd : descriptor s.lOp with
    | none => simp [move_unreachable hp hd] at h
    | some d => exact ((Descriptor.advances_of_advance hd hp (move_busy hp hd ▸ h)).keeps_rErr hfail).trans hs

theorem environment_noError (e : Event) {s : State} (hs : s.rErr = .noError) : (environment e s).rErr = .noError := by
  cases e with
  | reset => exact s.resetBlock_rErr
  | turn | hostOffer | hostStore | hostRegWrite | busRequest | writeCycleDone => exact hs

/-- Settles O39: the block's turn finds nothing to raise, and no other agent raises an error. -/
theorem referenceModeNeverFails : Obligations.ReferenceModeNeverFails := by
  intro s t hcfg hs hlegal hstep
  obtain ⟨es, hm | ⟨e, -, rfl⟩⟩ := step_next_cases hstep
  · exact move_noError (s := { s with agenda := es }) (by simp [hcfg]) (by simp [hcfg]) hs hlegal hm
  · exact environment_noError e (s := { s with agenda := es }) hs

end Sys2Proof.Machine
end

section
/-! PROOFS. Reset (R270 to R272), and a transport that never answers (R287): the block's turn then changes nothing, the
other agents leave PHASE alone, and reset ends the wait. -/

namespace Sys2Proof.Machine

/-! ### The events of the other agents -/

/-- An event of another agent that stands first is all its step does; the rest of the agenda stays. -/
theorem step_event {s : State} {e : Event} {es : List Event} (ha : s.agenda = e :: es) (he : e ≠ .turn) :
    step s = .next (environment e { s with agenda := es }) := by
  rcases step_cases s with ⟨hnil, -⟩ | ⟨es', hturn, -⟩ | ⟨e', es', hcons, -, hstep⟩
  · simp [ha] at hnil
  · exact absurd (List.cons.inj (ha.symm.trans hturn)).1 he
  · obtain ⟨rfl, rfl⟩ := List.cons.inj (ha.symm.trans hcons)
    exact hstep

/-- Among the other agents' events only a reset moves PHASE (R270). -/
theorem environment_phase {e : Event} (he : e ≠ .reset) (s : State) : (environment e s).phase = s.phase := by
  cases e with
  | reset => exact absurd rfl he
  | turn | hostOffer | hostStore | hostRegWrite | busRequest | writeCycleDone => rfl

/-! ### Reset -/

/-- What a reset adds to the trace: the FrameEnd of the frame it cuts, if there is one (R271). -/
theorem State.resetBlock_trace_append (s : State) :
    s.resetBlock.trace = s.trace ++ if s.frameActive then [.frameEnd] else [] := by
  rw [State.resetBlock_trace]
  split_ifs
  · rfl
  · exact (List.append_nil _).symm

/-- The responder notices a reset only by the frame it cuts (R272). -/
theorem State.resetBlock_chip_of_noCut {s : State} (h : s.frameActive = false ∨ s.link.attached = false) :
    s.resetBlock.chip = s.chip := by
  rw [State.resetBlock_chip, if_neg]
  rintro ⟨hf, hl⟩
  rcases h with h | h
  · simp [h] at hf
  · simp [h] at hl

/-- A cut frame takes effect as far as it goes, or has none (R271, U7). -/
theorem State.resetBlock_chip_of_cut {s : State} (hf : s.frameActive = true) (hl : s.link.attached = true) :
    s.resetBlock.chip = s.chip.frameEnd ∨ s.resetBlock.chip = s.chip.dropFrame := by
  rw [State.resetBlock_chip, if_pos ⟨hf, hl⟩]
  split_ifs
  · exact Or.inl rfl
  · exact Or.inr rfl

/-- A block that has just been reset is ready for a command (R44). -/
theorem State.resetBlock_cmdReady (s : State) : s.resetBlock.cmdReady = true := by
  simp [State.cmdReady]

/-- After a reset no frame is open (R44, R271). -/
theorem State.resetBlock_frameActive (s : State) : s.resetBlock.frameActive = false :=
  State.frameActive_of_idle s.resetBlock_phase

/-- The step of a reset is the reset, whatever stands behind it in the agenda (R270). -/
theorem step_reset {s : State} {es : List Event} (ha : s.agenda = .reset :: es) :
    step s = .next (State.resetBlock { s with agenda := es }) := step_event ha nofun

/-- Settles O44: the step is the reset alone, and its registers, its FrameEnd and its chip are the reset's. -/
theorem resetClearsTheBlock : Obligations.ResetClearsTheBlock := by
  intro s es ha
  refine ⟨_, step_reset ha, ?registers, ?_, ?_, ?_, ?_, ?_, ?_, ?_, ?_, ?_, ?trace, ?uncut, ?cut⟩
  case registers => simp [State.resetBlock_cmdReady, State.resetBlock_frameActive]
  case trace => exact State.resetBlock_trace_append _
  case uncut => exact State.resetBlock_chip_of_noCut (s := { s with agenda := es })
  case cut => exact State.resetBlock_chip_of_cut (s := { s with agenda := es })
  all_goals simp

/-! ### A transport that never answers -/

/-- A step that changes nothing is repeated for ever. -/
theorem run_of_step_self {s : State} (h : step s = .next s) (n : Nat) : core.run n s = .next s := by
  induction n with
  | zero => rfl
  | succ n ih => exact run_trans ih (run_one h)

theorem State.transportInit_silent {s : State} (h : s.link = .scripted []) : s.transportInit = none := by
  simp [State.transportInit, h]

/-- The command in progress waits, in an open frame for its exchange and in TINIT for the call to return (R287). -/
theorem Descriptor.advance_silent {d : Descriptor} {s : State} (hd : descriptor s.lOp = some d)
    (hpos : s.positioned = true) (hbusy : s.phase ≠ .idle) (hl : s.link = .scripted []) : d.advance s = .next s := by
  by_cases hf : s.frameActive = true
  · obtain ⟨t, ht⟩ := Descriptor.advance_goesOn hd hpos
    obtain ⟨out, hout⟩ := Descriptor.tOut_of_advance hd hf ht
    have hnone : (d.noted s).xchg out = none := State.xchg_silent ((d.noted_link s).trans hl) out
    rw [Descriptor.advance_eq_exchange hd hout, State.exchange, hnone]
  · simp only [Descriptor.advance, State.tinit_of_noFrame hbusy hf, State.transportInit_silent hl]

/-- The turn of a busy block whose transport is silent changes nothing. -/
theorem move_silent {s : State} (hpos : s.positioned = true) (hbusy : s.phase ≠ .idle) (hl : s.link = .scripted []) :
    move s = .next s := by
  obtain ⟨d, hd⟩ := State.positioned_row hpos hbusy
  rw [move_busy hbusy hd, Descriptor.advance_silent hd hpos hbusy hl]

/-- Settles O23: the block's turn changes nothing, another agent's event keeps PHASE and responds nothing, and a reset
makes the block ready. -/
theorem silentTransportHangsTheBlock : Obligations.SilentTransportHangsTheBlock := by
  intro s hpos hbusy ha hl
  have notReady {t : State} (hp : t.phase = s.phase) : t.cmdReady = false := by
    simpa [State.cmdReady, hp] using hbusy
  refine ⟨run_of_step_self ((step_turn ha).trans (move_silent hpos hbusy hl)), notReady rfl, fun e he => ?_,
    _, step_reset rfl, State.resetBlock_cmdReady _⟩
  by_cases hturn : e = .turn
  · subst hturn
    have hmove : move { s with agenda := [] } = .next { s with agenda := [] } :=
      move_silent (State.positioned_congr rfl rfl rfl rfl rfl rfl hpos) hbusy hl
    exact ⟨_, (step_of_blockMoves rfl).trans hmove, rfl, notReady rfl, rfl⟩
  · have hphase := environment_phase he { s with agenda := [] }
    exact ⟨_, step_event rfl hturn, hphase, notReady hphase, environment_responses e _⟩

end Sys2Proof.Machine
end
